-- ==== Sys2Proof/Word.lean ====
section
/-!
DEFINITION. The widths of the block: bytes, 16-bit register values, 64-bit command words and 32-bit
response words (spec/00_scope.md R12, R14 to R16).
-/

namespace Sys2Proof

/-- A byte (R16). -/
abbrev Byte := BitVec 8

/-- A 16-bit value: a block register, an address, a count, a checksum (R14, 10_state.md R30). -/
abbrev Word := BitVec 16

/-- A command word, `CW_WIDTH` = 64 bits (R12, 30_encoding.md R70). -/
abbrev CommandWord := BitVec 64

/-- A response word, `RESP_WIDTH` = 32 bits (R12, 30_encoding.md R73). -/
abbrev ResponseWord := BitVec 32

end Sys2Proof
end

