-- ==== Sys2Proof/Syntax.lean ====
section
/-!
DEFINITION. The twelve commands of spec/30_encoding.md R76, one constructor per row of
spec/opcode_table.json, with the operands their formats give them (R71, R72), and the names of the
block registers (10_state.md R30).
-/

namespace Sys2Proof

/-- A command. Operands are the unsigned integers the fields hold (R94). -/
inductive Instr where
  /-- RST, `44_system.md` R170. -/
  | rst
  /-- RD, the register number, `44_system.md` R171. -/
  | rd (reg : Byte)
  /-- CLRI, `43_buffers.md` R160. -/
  | clri
  /-- PUSH, the data byte, `43_buffers.md` R161. -/
  | push (data : Byte)
  /-- CLRO, `43_buffers.md` R162. -/
  | clro
  /-- POP, `43_buffers.md` R163. -/
  | pop
  /-- CRCI, `40_crc.md` R116. -/
  | crci
  /-- CRCU, the data byte, `40_crc.md` R117. -/
  | crcu (data : Byte)
  /-- CRCB, `40_crc.md` R118. -/
  | crcb
  /-- ENCW: slave id, function code, address offset, register count, `41_frame_encode.md` R131. -/
  | encw (slave func : Byte) (addr count : Word)
  /-- ENCR: slave id, function code, address offset, register count, `41_frame_encode.md` R132. -/
  | encr (slave func : Byte) (addr count : Word)
  /-- DECR: the register count of the request, `42_frame_decode.md` R150. -/
  | decr (count : Word)
  deriving DecidableEq, Repr

/-- The eleven block registers RD can name (10_state.md R30). -/
inductive BlockRegister where
  | crc | crcw | status | ilen | olen
  | slaveId | fcWrite | fcRead | wBase | rBase | wrLen
  deriving DecidableEq, Repr

end Sys2Proof
end

