-- ==== Sys2Proof/WellFormed.lean ====
section
/-!
DEFINITION. Which commands a command word can spell. The operand widths are in the types; the one
check left is RD's register number (spec/30_encoding.md R79).
-/

namespace Sys2Proof

/-- The numbers of R79: `0x00` to `0x04` and `0x08` to `0x0D`; every other number is reserved. -/
abbrev DefinedRegister (reg : Byte) : Prop :=
  reg.toNat ≤ 0x04 ∨ (0x08 ≤ reg.toNat ∧ reg.toNat ≤ 0x0D)

/-- A command that some command word spells: every command, but RD of a reserved number (R79, R81). -/
def WellFormed : Instr → Bool
  | .rst => true
  | .rd reg => decide (DefinedRegister reg)
  | .clri => true
  | .push _ => true
  | .clro => true
  | .pop => true
  | .crci => true
  | .crcu _ => true
  | .crcb => true
  | .encw _ _ _ _ => true
  | .encr _ _ _ _ => true
  | .decr _ => true

end Sys2Proof
end

