-- ==== Sys2Proof/Decode.lean ====
section
/-!
DEFINITION. Decoding of command words, a total function on 64-bit values that refuses by name
(spec/30_encoding.md R70 to R72, R76 to R81), and after it the encoder, from the same tables.
A command word is one 64-bit value and is not byte-addressed (20_memory.md R56), so the decoder takes
the whole word.
-/

namespace Sys2Proof

/-- Why a word is `Illegal` (R81). The three reasons execute alike (60_exceptions.md R184). -/
inductive DecodeError where
  /-- OP is none of the twelve opcodes (R77). -/
  | reservedOpcode
  /-- A field the format does not use, or RSV, is not zero (R78). -/
  | reservedField
  /-- RD of a reserved register number (R79). -/
  | reservedRegister
  deriving DecidableEq, Repr

/-- The four formats of R72. -/
inductive Format where
  | n | a | c | h
  deriving DecidableEq, Repr

/-- The twelve rows of R76. -/
inductive Opcode where
  | rst | rd | clri | push | clro | pop | crci | crcu | crcb | encw | encr | decr
  deriving DecidableEq, Repr

/-! ## Fields of a command word (R71) -/

/-- `OP = cw[7:0]`. -/
def opField (cw : CommandWord) : Byte := cw.extractLsb' 0 8
/-- `A = cw[15:8]`. -/
def aField (cw : CommandWord) : Byte := cw.extractLsb' 8 8
/-- `FUNC = cw[23:16]`. -/
def funcField (cw : CommandWord) : Byte := cw.extractLsb' 16 8
/-- `ADDR = cw[39:24]`. -/
def addrField (cw : CommandWord) : Word := cw.extractLsb' 24 16
/-- `COUNT = cw[55:40]`. -/
def countField (cw : CommandWord) : Word := cw.extractLsb' 40 16
/-- `RSV = cw[63:56]`. -/
def rsvField (cw : CommandWord) : Byte := cw.extractLsb' 56 8

/-- The word whose six fields are given, by the formula of R71:
`cw = OP + A * 2^8 + FUNC * 2^16 + ADDR * 2^24 + COUNT * 2^40 + RSV * 2^56`. -/
def assembleWord (op a func : Byte) (addr count : Word) (rsv : Byte) : CommandWord :=
  BitVec.ofNat 64
    (op.toNat + a.toNat * 2 ^ 8 + func.toNat * 2 ^ 16 + addr.toNat * 2 ^ 24 + count.toNat * 2 ^ 40
      + rsv.toNat * 2 ^ 56)

/-! ## The opcode table (R76) -/

/-- The OP column of R76. -/
def Opcode.code : Opcode → Byte
  | .rst => 0x01
  | .rd => 0x02
  | .clri => 0x10
  | .push => 0x11
  | .clro => 0x12
  | .pop => 0x13
  | .crci => 0x20
  | .crcu => 0x21
  | .crcb => 0x22
  | .encw => 0x30
  | .encr => 0x31
  | .decr => 0x32

/-- The format column of R76. -/
def Opcode.format : Opcode → Format
  | .rst => .n
  | .rd => .a
  | .clri => .n
  | .push => .a
  | .clro => .n
  | .pop => .n
  | .crci => .n
  | .crcu => .a
  | .crcb => .n
  | .encw => .h
  | .encr => .h
  | .decr => .c

/-- The fixed bits of a format (the mask column of R72). -/
def Format.mask : Format → CommandWord
  | .n => 0xFFFFFFFFFFFFFFFF
  | .a => 0xFFFFFFFFFFFF00FF
  | .c => 0xFF0000FFFFFFFFFF
  | .h => 0xFF000000000000FF

/-- The match value: the opcode in bits 7:0 and zero elsewhere (R72). -/
def Opcode.matchWord (op : Opcode) : CommandWord := op.code.setWidth 64

/-- The row of R76 with a given OP value, if any. -/
def Opcode.ofCode? (b : Byte) : Option Opcode :=
  [Opcode.rst, .rd, .clri, .push, .clro, .pop, .crci, .crcu, .crcb, .encw, .encr, .decr].find?
    (fun op => op.code == b)

/-- The register a number names (10_state.md R30); the other numbers are reserved. -/
def BlockRegister.ofNumber? (reg : Byte) : Option BlockRegister :=
  if reg = 0x00 then some .crc
  else if reg = 0x01 then some .crcw
  else if reg = 0x02 then some .status
  else if reg = 0x03 then some .ilen
  else if reg = 0x04 then some .olen
  else if reg = 0x08 then some .slaveId
  else if reg = 0x09 then some .fcWrite
  else if reg = 0x0A then some .fcRead
  else if reg = 0x0B then some .wBase
  else if reg = 0x0C then some .rBase
  else if reg = 0x0D then some .wrLen
  else none

/-! ## Decoding (R81) -/

/-- The last lines of R81: RD of a reserved number is illegal; otherwise the mnemonic with the fields
its format uses. -/
def decodeRow (op : Opcode) (cw : CommandWord) : Except DecodeError Instr :=
  match op with
  | .rst => .ok .rst
  | .rd =>
    match BlockRegister.ofNumber? (aField cw) with
    | some _ => .ok (.rd (aField cw))
    | none => .error .reservedRegister
  | .clri => .ok .clri
  | .push => .ok (.push (aField cw))
  | .clro => .ok .clro
  | .pop => .ok .pop
  | .crci => .ok .crci
  | .crcu => .ok (.crcu (aField cw))
  | .crcb => .ok .crcb
  | .encw => .ok (.encw (aField cw) (funcField cw) (addrField cw) (countField cw))
  | .encr => .ok (.encr (aField cw) (funcField cw) (addrField cw) (countField cw))
  | .decr => .ok (.decr (countField cw))

/-- `decode(cw)` of R81. -/
def decode (cw : CommandWord) : Except DecodeError Instr :=
  match Opcode.ofCode? (opField cw) with
  | none => .error .reservedOpcode
  | some op =>
    if cw &&& op.format.mask = op.matchWord then decodeRow op cw else .error .reservedField

/-! ## Encoding (R71, R76) -/

/-- The row a command belongs to. -/
def opcodeOf : Instr → Opcode
  | .rst => .rst
  | .rd _ => .rd
  | .clri => .clri
  | .push _ => .push
  | .clro => .clro
  | .pop => .pop
  | .crci => .crci
  | .crcu _ => .crcu
  | .crcb => .crcb
  | .encw _ _ _ _ => .encw
  | .encr _ _ _ _ => .encr
  | .decr _ => .decr

/-- The command word of a command: the opcode and the fields its format uses, every other field zero
(R71, R72). -/
def encode (i : Instr) : CommandWord :=
  match i with
  | .rst => assembleWord 0x01 0 0 0 0 0
  | .rd reg => assembleWord 0x02 reg 0 0 0 0
  | .clri => assembleWord 0x10 0 0 0 0 0
  | .push data => assembleWord 0x11 data 0 0 0 0
  | .clro => assembleWord 0x12 0 0 0 0 0
  | .pop => assembleWord 0x13 0 0 0 0 0
  | .crci => assembleWord 0x20 0 0 0 0 0
  | .crcu data => assembleWord 0x21 data 0 0 0 0
  | .crcb => assembleWord 0x22 0 0 0 0 0
  | .encw slave func addr count => assembleWord 0x30 slave func addr count 0
  | .encr slave func addr count => assembleWord 0x31 slave func addr count 0
  | .decr count => assembleWord 0x32 0 0 0 count 0

/-! ## Words of the opcode table -/

/-- The command word whose bits are the low `nbits` bits of `w`, every bit above them zero, numbered
as spec/opcode_table.json numbers them (R71: bit 0 is the least significant bit of the 64-bit value). -/
def tableWord (nbits w : Nat) : CommandWord := BitVec.ofNat 64 (w % 2 ^ nbits)

/-- The command the decoder reads from a word of the opcode table, none where it refuses. -/
def decodeTableWord (nbits w : Nat) : Option Instr :=
  match decode (tableWord nbits w) with
  | .ok i => some i
  | .error _ => none

end Sys2Proof
end

