-- ==== Sys2Proof/Config.lean ====
section
/-!
DEFINITION. The configuration record of spec/00_scope.md R8 and R12: the protocol constants and the
buffer capacities, fixed when the block is built and no part of the state (10_state.md R33,
70_reset_and_hazards.md R212). The block has no free value (93_implementation_defined.md, Part 1).
-/

namespace Sys2Proof

/-- What is fixed when a block is built: the six protocol constants of R8 and the two capacities of
R12. `VALIDATE_INBOUND` has no field: it is off and not implemented (R7, R12). -/
structure Cfg where
  /-- `SLAVE_ID`, readable as SLAVEID. -/
  slaveId : Byte
  /-- `FC_WRITE`, readable as FCWRITE. -/
  fcWrite : Byte
  /-- `FC_READ`, readable as FCREAD. -/
  fcRead : Byte
  /-- `WRITE_BASE`, added to ADDR by ENCW, readable as WBASE. -/
  writeBase : Word
  /-- `READ_BASE`, added to ADDR by ENCR, readable as RBASE. -/
  readBase : Word
  /-- `WRITE_RESP_LEN`, readable as WRLEN. -/
  writeRespLen : Word
  /-- `IBUF_CAP`, the capacity of the input buffer in bytes. -/
  ibufCap : Nat
  /-- `OBUF_CAP`, the capacity of the output buffer in bytes. -/
  obufCap : Nat
  deriving DecidableEq, Repr

/-- The values of this hardware (the tables of R8 and R12). -/
def Config.mfc : Cfg where
  slaveId := 0x09
  fcWrite := 0x10
  fcRead := 0x03
  writeBase := 0x03E8
  readBase := 0x07D0
  writeRespLen := 8
  ibufCap := 264
  obufCap := 264

/-- The constraint R12 puts on other capacities: IBUF_CAP at least 21, OBUF_CAP at least 264 and at
least IBUF_CAP - 5. -/
abbrev Cfg.Admissible (cfg : Cfg) : Prop :=
  21 ≤ cfg.ibufCap ∧ 264 ≤ cfg.obufCap ∧ cfg.ibufCap - 5 ≤ cfg.obufCap

end Sys2Proof
end

