-- ==== Sys2Proof/Machine/State.lean ====
section
/-!
DEFINITION. The state of the block as plain data (spec/10_state.md R36), beside it the command port as
one deterministic step sees it, the reset state (R34), and the reasons a step could stop.
-/

namespace Sys2Proof.Machine

/-- What the host does next at the port: it presents a command word, or the platform asserts hardware
reset between commands (spec/70_reset_and_hazards.md R210, R211). -/
inductive HostInput where
  | command (cw : CommandWord)
  | hardwareReset
  deriving DecidableEq, Repr

/-- `crc`, `status`, `ibuf` and `obuf` are the four items of R36, the block's whole architectural
state. `response` and `inputs` are the MODEL's own (DESIGN CHOICE, log entries 1 and 3): the command
port. The block has no queue (70_reset_and_hazards.md R220): only the first entry of `inputs` is
before the block, and no command reads the rest. -/
structure State where
  /-- CRC, R22: the checksum in canonical orientation. -/
  crc : Word
  /-- STATUS, R24: sticky fault bits 0 to 4. -/
  status : Word
  /-- IBUF, R26: the input buffer, first pushed byte first. -/
  ibuf : List Byte
  /-- OBUF, R27: the output buffer, next byte to POP first. -/
  obuf : List Byte
  /-- The response word returned last (30_encoding.md R73); none before the first command. -/
  response : Option ResponseWord
  /-- What the host presents, the next first. -/
  inputs : List HostInput
  deriving DecidableEq, Repr

/-- Reasons to stop with a fault. There is none: every command terminates and returns its response,
and there is "no hang and no stuck state in the block" (70_reset_and_hazards.md R231); the five errors
of 60_exceptions.md R181 are responses, so next states. Nobody raises a fault (log entry 8). -/
inductive Fault where
  deriving DecidableEq, Repr

/-- Reasons to refuse a command. -/
inductive Refusal where
  /-- A command with no meaning in the model yet, raised by `exec`'s arm for it; safe. All twelve have
  their meaning, so no arm raises it. -/
  | notModelled (mnemonic : String)
  deriving DecidableEq, Repr

/-- The outcome of a step or of a command. -/
abbrev Result := Host.Outcome State Fault Refusal

/-- The machine right after reset: CRC `0xFFFF`, STATUS `0x0000`, both buffers empty (R34); no response
returned yet and nothing presented (log entries 1 and 3). -/
def State.reset : State where
  crc := 0xFFFF
  status := 0x0000
  ibuf := []
  obuf := []
  response := none
  inputs := []

end Sys2Proof.Machine
end

