-- ==== Sys2Proof/Machine/Flags.lean ====
section
/-!
DEFINITION. The error codes and the STATUS register's fault bits (spec/10_state.md R24, R25;
spec/60_exceptions.md R181).
-/

namespace Sys2Proof.Machine

/-- The five error kinds of R181. -/
inductive ErrorCode where
  /-- E_ILLEGAL: the command word does not decode (R184). -/
  | illegal
  /-- E_SHORT: DECR on too few bytes (R185). -/
  | short
  /-- E_OVF: PUSH into a full IBUF (R186). -/
  | overflow
  /-- E_EMPTY: POP from an empty OBUF (R187). -/
  | empty
  /-- E_RANGE: a value does not fit its frame field (R188). -/
  | range
  deriving DecidableEq, Repr

/-- The code column of R181; 0 is success. -/
def ErrorCode.code : ErrorCode → Byte
  | .illegal => 1
  | .short => 2
  | .overflow => 3
  | .empty => 4
  | .range => 5

/-- The fault bit of an error: bit `code - 1` (R24, R25). -/
def ErrorCode.statusBit (e : ErrorCode) : Word := 1#16 <<< (e.code.toNat - 1)

/-- `STATUS | (1 << (code - 1))` (R25). -/
def latchError (e : ErrorCode) (status : Word) : Word := status ||| e.statusBit

end Sys2Proof.Machine
end

