-- ==== Sys2Proof/Machine/Ops.lean ====
section
/-!
DEFINITION. The named operations over the state: writing a register or a buffer, returning a response,
raising an error (the block's trap entry, spec/60_exceptions.md R183), and hardware reset. There is no
return from an error (R193): the failing command is complete when its response is returned.
-/

namespace Sys2Proof.Machine

/-- `CRC <- v` (00_scope.md R17). -/
def State.setCrc (v : Word) (s : State) : State := { s with crc := v }

/-- `IBUF <- bytes` (R17). -/
def State.setIbuf (bytes : List Byte) (s : State) : State := { s with ibuf := bytes }

/-- `OBUF <- bytes` (R17). -/
def State.setObuf (bytes : List Byte) (s : State) : State := { s with obuf := bytes }

/-- `STATUS <- v` (R17). -/
def State.setStatus (v : Word) (s : State) : State := { s with status := v }

/-- `resp(val, err)`, "the word `err + val * 2^16`" (30_encoding.md R73). -/
def resp (val : Word) (err : Byte) : ResponseWord :=
  BitVec.ofNat 32 (err.toNat + val.toNat * 2 ^ 16)

/-- The ERR field of a response word, bits 7:0 (R73). -/
def respErr (r : ResponseWord) : Byte := r.extractLsb' 0 8

/-- The VAL field of a response word, bits 31:16 (R73). -/
def respVal (r : ResponseWord) : Word := r.extractLsb' 16 16

/-- The field between them, bits 15:8, always zero (R73). -/
def respZero (r : ResponseWord) : Byte := r.extractLsb' 8 8

/-- Return a response word. The command is then complete and its word is used up (20_memory.md R64), so
the port is free for the host's next one (70_reset_and_hazards.md R220; log entry 1). -/
def reply (r : ResponseWord) (s : State) : State :=
  { s with response := some r, inputs := s.inputs.tail }

/-- `return resp(val, 0)`: the command succeeds. -/
def succeed (val : Word) (s : State) : State := reply (resp val 0) s

/-- `raise E_x` (60_exceptions.md R183): latch the error's STATUS bit, respond `resp(0, code)`, change
nothing else. -/
def raise (e : ErrorCode) (s : State) : State :=
  reply (resp 0 e.code) (s.setStatus (latchError e s.status))

/-- A failing ENCW, ENCR or DECR empties OBUF before it raises (R183). -/
def raiseEmptyingObuf (e : ErrorCode) (s : State) : State := raise e (s.setObuf [])

/-- The state all of whose four items hold their reset values (10_state.md R34), the port untouched. -/
def resetBlock (s : State) : State :=
  { s with
    crc := State.reset.crc
    status := State.reset.status
    ibuf := State.reset.ibuf
    obuf := State.reset.obuf }

/-- A hardware reset step (70_reset_and_hazards.md R210, R211): the reset state. It is no command and
returns no response (log entry 3); the host's later inputs stand. -/
def hardwareReset (s : State) : State :=
  { resetBlock s with response := State.reset.response, inputs := s.inputs.tail }

/-- Put an input before everything else the host presents. -/
def present (input : HostInput) (s : State) : State := { s with inputs := input :: s.inputs }

/-- The two buffers are within their capacities (10_state.md R35). -/
abbrev Memory.fits (cfg : Cfg) (s : State) : Prop :=
  s.ibuf.length ≤ cfg.ibufCap ∧ s.obuf.length ≤ cfg.obufCap

/-- The form the block's memory always has, for this hardware's capacities (R12, R35). -/
abbrev Memory.wf (s : State) : Prop := Memory.fits Config.mfc s

end Sys2Proof.Machine
end

