-- ==== Sys2Proof/Machine/Operands.lean ====
section
/-!
DEFINITION. Operand forms: bytes of a 16-bit value and their two orders (spec/00_scope.md R15, R16), the
start address (41_frame_encode.md R130), response lengths (30_encoding.md R87, 42_frame_decode.md R151),
and the value a block register reads as (10_state.md R30).
-/

namespace Sys2Proof.Machine

/-- `v[7:0]` (R15). -/
def lowByte (v : Word) : Byte := v.extractLsb' 0 8

/-- `v[15:8]` (R15). -/
def highByte (v : Word) : Byte := v.extractLsb' 8 8

/-- `[v[15:8], v[7:0]]`, the order of header fields (R16, 20_memory.md R54). -/
def bigEndian (v : Word) : List Byte := [highByte v, lowByte v]

/-- `[v[7:0], v[15:8]]`, the order of the checksum (R16, 20_memory.md R55). -/
def lowByteFirst (v : Word) : List Byte := [lowByte v, highByte v]

/-- The number two bytes make, the first one high (R16, 20_memory.md R68). -/
def ofBigEndian (first second : Byte) : Word :=
  BitVec.ofNat 16 (first.toNat * 2 ^ 8 + second.toNat)

/-- The length of a byte sequence as a 16-bit register value (10_state.md R28). Within the capacities it
is the length itself (log entry 7). -/
def lengthWord (bytes : List Byte) : Word := BitVec.ofNat 16 bytes.length

/-- `ADDR + base`, formed as an unbounded integer; none when the two-byte field cannot hold it
(41_frame_encode.md R130). -/
def startAddress (base addr : Word) : Option Word :=
  if addr.toNat + base.toNat > 0xFFFF then none
  else some (BitVec.ofNat 16 (addr.toNat + base.toNat))

/-- The expected read-response length, `3 + 2 * COUNT + 2`, an unbounded integer (30_encoding.md R87,
42_frame_decode.md R151). -/
def readResponseLength (count : Word) : Nat := 3 + 2 * count.toNat + 2

/-- The CRCW view, `CRC[7:0] ∥ CRC[15:8]`: the two wire bytes of the checksum read big-endian
(10_state.md R23). -/
def crcw (crc : Word) : Word := ofBigEndian (lowByte crc) (highByte crc)

/-- The 16-bit value RD returns (10_state.md R30, 44_system.md R171). -/
def readRegister (cfg : Cfg) (r : BlockRegister) (s : State) : Word :=
  match r with
  | .crc => s.crc
  | .crcw => crcw s.crc
  | .status => s.status
  | .ilen => lengthWord s.ibuf
  | .olen => lengthWord s.obuf
  | .slaveId => cfg.slaveId.setWidth 16
  | .fcWrite => cfg.fcWrite.setWidth 16
  | .fcRead => cfg.fcRead.setWidth 16
  | .wBase => cfg.writeBase
  | .rBase => cfg.readBase
  | .wrLen => cfg.writeRespLen

end Sys2Proof.Machine
end

