-- ==== Sys2Proof/Machine/Buffers.lean ====
section
/-!
DEFINITION. The buffer commands CLRI, PUSH, CLRO and POP (spec/43_buffers.md R160 to R163).
-/

namespace Sys2Proof.Machine

/-- CLRI (R160): IBUF empty, `resp(0, 0)`. -/
def execClri (s : State) : Result := .next (succeed 0 (s.setIbuf []))

/-- PUSH for a block built with `cfg` (R161, log entry 7): E_OVF when IBUF is full, and the byte is dropped; else the
byte at the end of IBUF, VAL the new ILEN. -/
def pushByte (cfg : Cfg) (data : Byte) (s : State) : State :=
  if s.ibuf.length = cfg.ibufCap then raise .overflow s
  else succeed (lengthWord (s.ibuf ++ [data])) (s.setIbuf (s.ibuf ++ [data]))

/-- PUSH (R161). -/
def execPush (data : Byte) (s : State) : Result := .next (pushByte Config.mfc data s)

/-- CLRO (R162): OBUF empty, `resp(0, 0)`. -/
def execClro (s : State) : Result := .next (succeed 0 (s.setObuf []))

/-- POP (R163): E_EMPTY when OBUF is empty; else its first byte removed, VAL that byte zero-extended. -/
def execPop (s : State) : Result :=
  match s.obuf with
  | [] => .next (raise .empty s)
  | b :: rest => .next (succeed (b.setWidth 16) (s.setObuf rest))

end Sys2Proof.Machine
end

