-- ==== Sys2Proof/Machine/CrcUnit.lean ====
section
/-!
DEFINITION. The CRC unit's commands CRCI, CRCU and CRCB (spec/40_crc.md R116 to R118). None of them can
fail (R119).
-/

namespace Sys2Proof.Machine

/-- `CRC <- v`, VAL the value just written. -/
def writeCrc (v : Word) (s : State) : State := succeed v (s.setCrc v)

/-- CRCI (R116). -/
def execCrci (s : State) : Result := .next (writeCrc crcInit s)

/-- CRCU (R117): from whatever CRC holds. -/
def execCrcu (data : Byte) (s : State) : Result := .next (writeCrc (crcStep s.crc data) s)

/-- CRCB (R118): over the whole IBUF, which stays, starting from the initial value. -/
def execCrcb (s : State) : Result := .next (writeCrc (crc16 s.ibuf) s)

end Sys2Proof.Machine
end

