-- ==== Sys2Proof/Machine/Frame.lean ====
section
/-!
DEFINITION. The four frames (spec/30_encoding.md R82 to R89) as byte sequences, and the operation that
puts a built frame into OBUF (41_frame_encode.md R131, R132, R138).
-/

namespace Sys2Proof.Machine

/-- The checksum "is always the final 2 bytes", over every preceding byte, low byte first (R89, R55). -/
def sealFrame (body : List Byte) : List Byte := body ++ lowByteFirst (crc16 body)

/-- The six header bytes both requests begin with: slave id, function code, start address, register
count, the last two big-endian (R83, R84, 20_memory.md R54). -/
def requestHeader (slave func : Byte) (address count : Word) : List Byte :=
  [slave, func] ++ bigEndian address ++ bigEndian count

/-- The write request before its checksum (R83): the header, the payload length as one byte, the payload.
None when the length does not fit a byte or the address sum does not fit its field (R130, R131). -/
def writeRequestBody (cfg : Cfg) (slave func : Byte) (addr count : Word) (payload : List Byte) :
    Option (List Byte) :=
  if payload.length > 255 then none
  else
    match startAddress cfg.writeBase addr with
    | none => none
    | some a => some (requestHeader slave func a count ++ [BitVec.ofNat 8 payload.length] ++ payload)

/-- The read request before its checksum (R84); none when the address sum does not fit (R130, R132). -/
def readRequestBody (cfg : Cfg) (slave func : Byte) (addr count : Word) : Option (List Byte) :=
  match startAddress cfg.readBase addr with
  | none => none
  | some a => some (requestHeader slave func a count)

/-- The source's `encodeWriteFrame` (R75): none where ENCW raises E_RANGE. -/
def encodeWriteFrame (cfg : Cfg) (slave func : Byte) (addr count : Word) (payload : List Byte) :
    Option (List Byte) :=
  (writeRequestBody cfg slave func addr count payload).map sealFrame

/-- The source's `encodeReadFrame` (R75): none where ENCR raises E_RANGE. -/
def encodeReadFrame (cfg : Cfg) (slave func : Byte) (addr count : Word) : Option (List Byte) :=
  (readRequestBody cfg slave func addr count).map sealFrame

/-- The payload of a read response, `IBUF[3 .. 3 + 2*n)` (42_frame_decode.md R150); no other byte is
examined (R153). -/
def responsePayload (bytes : List Byte) (count : Word) : List Byte :=
  (bytes.drop 3).take (2 * count.toNat)

/-- The source's `decodeReadResponse` (R75): none where DECR raises E_SHORT. Only shortness fails
(R152). -/
def decodeReadResponse (bytes : List Byte) (count : Word) : Option (List Byte) :=
  if bytes.length < readResponseLength count then none else some (responsePayload bytes count)

/-- The write response the device sends (R85): bytes 2 to 5 of the request echoed, then the checksum.
The block builds no such frame and has no command that parses it (42_frame_decode.md R155; log entry 10). -/
def writeResponse (slave func : Byte) (address count : Word) : List Byte :=
  sealFrame (requestHeader slave func address count)

/-- The read response the device sends (R86): slave id, function code, byte count, payload, checksum. It
is the well-formed one (R88) for a payload of `2n` bytes with `n` at most 127. DESIGN CHOICE (log entry 12):
for any other payload, of which the spec has no well-formed response (41_frame_encode.md R132), the byte
count is the payload's length modulo 256. The block builds no such frame (log entry 10). -/
def readResponse (slave func : Byte) (payload : List Byte) : List Byte :=
  sealFrame ([slave, func, BitVec.ofNat 8 payload.length] ++ payload)

/-- ENCW and ENCR after their body is formed: OBUF is the sealed frame, CRC its checksum, VAL its length;
with no body, OBUF is emptied and E_RANGE raised (R131, R132, R138). -/
def emitFrame (body : Option (List Byte)) (s : State) : State :=
  match body with
  | none => raiseEmptyingObuf .range s
  | some bytes =>
    succeed (lengthWord (sealFrame bytes)) ((s.setObuf (sealFrame bytes)).setCrc (crc16 bytes))

end Sys2Proof.Machine
end

