-- ==== Sys2Proof/Machine/FrameUnit.lean ====
section
/-!
DEFINITION. The FRAME unit's commands ENCW, ENCR (spec/41_frame_encode.md R131, R132) and DECR
(spec/42_frame_decode.md R150).
-/

namespace Sys2Proof.Machine

/-- ENCW for a block built with `cfg` (R131): the payload is the whole of IBUF, which stays. COUNT is
copied and compared with nothing (R134), slave id and function code likewise (R135). -/
def encodeWrite (cfg : Cfg) (slave func : Byte) (addr count : Word) (s : State) : State :=
  emitFrame (writeRequestBody cfg slave func addr count s.ibuf) s

/-- ENCW (R131). -/
def execEncw (slave func : Byte) (addr count : Word) (s : State) : Result :=
  .next (encodeWrite Config.mfc slave func addr count s)

/-- ENCR for a block built with `cfg` (R132): IBUF is neither read nor changed. -/
def encodeRead (cfg : Cfg) (slave func : Byte) (addr count : Word) (s : State) : State :=
  emitFrame (readRequestBody cfg slave func addr count) s

/-- ENCR (R132). -/
def execEncr (slave func : Byte) (addr count : Word) (s : State) : Result :=
  .next (encodeRead Config.mfc slave func addr count s)

/-- DECR (R150): E_SHORT and an empty OBUF when IBUF is shorter than needed (R156); else the payload in
OBUF, VAL its length `2 * COUNT`. CRC and IBUF stay, and nothing is validated (R153). -/
def execDecr (count : Word) (s : State) : Result :=
  match decodeReadResponse s.ibuf count with
  | none => .next (raiseEmptyingObuf .short s)
  | some payload => .next (succeed (BitVec.ofNat 16 (2 * count.toNat)) (s.setObuf payload))

end Sys2Proof.Machine
end

