-- ==== Sys2Proof/Machine/System.lean ====
section
/-!
DEFINITION. The system commands RST and RD (spec/44_system.md R170, R171).
-/

namespace Sys2Proof.Machine

/-- RST (R170): the four items to their reset values, `resp(0, 0)`. -/
def execRst (s : State) : Result := .next (succeed 0 (resetBlock s))

/-- RD for a block built with `cfg` (R171): the register's value, nothing changed; a reserved number
raises E_ILLEGAL (the decoder has refused it before, 30_encoding.md R81; log entry 9). -/
def readCommand (cfg : Cfg) (reg : Byte) (s : State) : State :=
  match BlockRegister.ofNumber? reg with
  | some r => succeed (readRegister cfg r s) s
  | none => raise .illegal s

/-- RD (R171). -/
def execRd (reg : Byte) (s : State) : Result := .next (readCommand Config.mfc reg s)

end Sys2Proof.Machine
end

