-- ==== Sys2Proof/Machine/Dispatch.lean ====
section
/-!
DEFINITION. The meaning of a command, one arm per constructor (spec/30_encoding.md R76).
-/

namespace Sys2Proof.Machine

def exec (i : Instr) (s : State) : Host.Outcome State Fault Refusal :=
  match i with
  | .rst => Sys2Proof.Machine.execRst s
  | .rd reg => Sys2Proof.Machine.execRd reg s
  | .clri => Sys2Proof.Machine.execClri s
  | .push data => Sys2Proof.Machine.execPush data s
  | .clro => Sys2Proof.Machine.execClro s
  | .pop => Sys2Proof.Machine.execPop s
  | .crci => Sys2Proof.Machine.execCrci s
  | .crcu data => Sys2Proof.Machine.execCrcu data s
  | .crcb => Sys2Proof.Machine.execCrcb s
  | .encw slave func addr count => Sys2Proof.Machine.execEncw slave func addr count s
  | .encr slave func addr count => Sys2Proof.Machine.execEncr slave func addr count s
  | .decr count => Sys2Proof.Machine.execDecr count s

end Sys2Proof.Machine
end

