-- ==== Sys2Proof/Machine/Port.lean ====
section
/-!
DEFINITION. The command port: what one step does with what the host presents
(spec/70_reset_and_hazards.md R211, R220; spec/30_encoding.md R81).
-/

namespace Sys2Proof.Machine

/-- A command step: the word decoded and executed; `Illegal` executes as `raise E_ILLEGAL` (R81). -/
def execWord (cw : CommandWord) (s : State) : Result :=
  match decode cw with
  | .ok i => exec i s
  | .error _ => .next (raise .illegal s)

/-- One step: a command step or a reset step, as the host chooses (R211); with nothing presented the
block is idle and keeps its state (60_exceptions.md R205; log entry 2). -/
def takeInput (s : State) : Result :=
  match s.inputs with
  | [] => .next s
  | .hardwareReset :: _ => .next (hardwareReset s)
  | .command cw :: _ => execWord cw s

end Sys2Proof.Machine
end

