-- ==== Sys2Proof/Machine/Step.lean ====
section
/-!
DEFINITION. The step of the machine, and how a word of the opcode table is put before it.
-/

namespace Sys2Proof.Machine

/-- One step of the block (`takeInput`). -/
def step (s : State) : Host.Outcome State Fault Refusal := takeInput s

/-- The state with a command word, given as the low `nbits` bits of `w`, presented before everything else
the host presents, so that the next step runs it (log entry 4). -/
def State.withFetchWord (s : State) (nbits w : Nat) : State :=
  present (.command (tableWord nbits w)) s

end Sys2Proof.Machine
end

