-- ==== Sys2Proof/Machine/Assembler.lean ====
section
/-!
DEFINITION. The assembler notation and the pseudo-instructions (spec/30_encoding.md R91, R92). They are
the spec's way of writing command sequences; the block sees command words only.
-/

namespace Sys2Proof.Machine

/-- The six pseudo-instructions of R92. -/
inductive Pseudo where
  /-- `LOAD b0, ..., bk-1`: handing a byte sequence to the block. -/
  | load (bytes : List Byte)
  /-- `CHECKSUM b0, ..., bk-1`: the checksum of any number of bytes. -/
  | checksum (bytes : List Byte)
  /-- `CHECKSUMB b0, ..., bk-1`, at most `IBUF_CAP` bytes: the checksum through the buffer. -/
  | checksumb (bytes : List Byte)
  /-- `WRITEREGS addr, count`: ENCW with `SLAVE_ID` and `FC_WRITE`. -/
  | writeregs (addr count : Word)
  /-- `READREGS addr, count`: ENCR with `SLAVE_ID` and `FC_READ`. -/
  | readregs (addr count : Word)
  /-- `DRAIN n`: taking a result of n bytes. -/
  | drain (n : Nat)
  deriving DecidableEq, Repr

/-- The expansion column of R92; none for a CHECKSUMB longer than IBUF_CAP, which R92 does not admit. -/
def expandPseudo (cfg : Cfg) : Pseudo → Option (List Instr)
  | .load bytes => some (.clri :: bytes.map .push)
  | .checksum bytes => some (.crci :: bytes.map .crcu)
  | .checksumb bytes =>
    if bytes.length ≤ cfg.ibufCap then some (.clri :: bytes.map .push ++ [.crcb]) else none
  | .writeregs addr count => some [.encw cfg.slaveId cfg.fcWrite addr count]
  | .readregs addr count => some [.encr cfg.slaveId cfg.fcRead addr count]
  | .drain n => some (List.replicate n .pop)

/-- What the host presents to have a sequence of commands executed, first command first. -/
def hostProgram (program : List Instr) : List HostInput :=
  program.map (fun i => .command (encode i))

/-! ## Text (R91) -/

/-- A digit in a base of at most 16. -/
def digitValue (base : Nat) (c : Char) : Option Nat :=
  let v :=
    if '0' ≤ c ∧ c ≤ '9' then c.toNat - '0'.toNat
    else if 'A' ≤ c ∧ c ≤ 'F' then c.toNat - 'A'.toNat + 10
    else if 'a' ≤ c ∧ c ≤ 'f' then c.toNat - 'a'.toNat + 10
    else base
  if v < base then some v else none

/-- The number whose digits follow those already read into `acc`. -/
def readDigits (base acc : Nat) : List Char → Option Nat
  | [] => some acc
  | c :: cs => (digitValue base c).bind fun v => readDigits base (acc * base + v) cs

/-- A number: "decimal or `0x` hexadecimal" (R91). -/
def readNumber : List Char → Option Nat
  | [] => none
  | '0' :: 'x' :: c :: cs => readDigits 16 0 (c :: cs)
  | c :: cs => readDigits 10 0 (c :: cs)

/-- The register names of 10_state.md R30, which "may stand for their numbers" (R91; where, log entry 11). -/
def registerNames : List (String × Nat) :=
  [("CRC", 0x00), ("CRCW", 0x01), ("STATUS", 0x02), ("ILEN", 0x03), ("OLEN", 0x04),
   ("SLAVEID", 0x08), ("FCWRITE", 0x09), ("FCREAD", 0x0A), ("WBASE", 0x0B), ("RBASE", 0x0C),
   ("WRLEN", 0x0D)]

/-- The white space between the parts of a line. -/
def isBlank (c : Char) : Bool := c == ' ' || c == '\t' || c == '\r'

/-- A text without the white space around it. -/
def trimBlanks (cs : List Char) : List Char :=
  ((cs.dropWhile isBlank).reverse.dropWhile isBlank).reverse

/-- A text cut at every occurrence of a separator. -/
def splitAtChar (sep : Char) : List Char → List (List Char)
  | [] => [[]]
  | c :: cs =>
    if c = sep then [] :: splitAtChar sep cs
    else
      match splitAtChar sep cs with
      | [] => [[c]]
      | part :: parts => (c :: part) :: parts

/-- An operand: a register name or a number. DESIGN CHOICE (log entry 11): a name stands for its number as
an operand of every line; R91 says names may stand for their numbers, and shows one in `RD CRC` only. -/
def readOperand (cs : List Char) : Option Nat :=
  match registerNames.find? (fun entry => entry.1.toList == cs) with
  | some entry => some entry.2
  | none => readNumber cs

/-- The operands of a line, "separated by commas" (R91). -/
def readOperands (cs : List Char) : Option (List Nat) :=
  match trimBlanks cs with
  | [] => some []
  | c :: rest => (splitAtChar ',' (c :: rest)).mapM (fun part => readOperand (trimBlanks part))

/-- An operand that must fit a byte field; one that does not fit is refused (log entry 6). -/
def byteOperand (n : Nat) : Option Byte := if n < 2 ^ 8 then some (BitVec.ofNat 8 n) else none

/-- An operand that must fit a 16-bit field (log entry 6). -/
def wordOperand (n : Nat) : Option Word := if n < 2 ^ 16 then some (BitVec.ofNat 16 n) else none

/-- The names a line may begin with: the mnemonics of R76 and the pseudo-instructions of R92. -/
inductive LineName where
  | command (op : Opcode)
  | load | checksum | checksumb | writeregs | readregs | drain
  deriving DecidableEq, Repr

/-- "the mnemonic in capitals" (R91). -/
def lineNames : List (String × LineName) :=
  [("RST", .command .rst), ("RD", .command .rd), ("CLRI", .command .clri), ("PUSH", .command .push),
   ("CLRO", .command .clro), ("POP", .command .pop), ("CRCI", .command .crci),
   ("CRCU", .command .crcu), ("CRCB", .command .crcb), ("ENCW", .command .encw),
   ("ENCR", .command .encr), ("DECR", .command .decr), ("LOAD", .load), ("CHECKSUM", .checksum),
   ("CHECKSUMB", .checksumb), ("WRITEREGS", .writeregs), ("READREGS", .readregs), ("DRAIN", .drain)]

/-- The four operands of format H, "in the order slave id, function code, address, count" (R91). -/
def headerOperands (make : Byte → Byte → Word → Word → Instr) : List Nat → Option (List Instr)
  | [slave, func, addr, count] => do
    let a ← byteOperand slave
    let f ← byteOperand func
    let d ← wordOperand addr
    let n ← wordOperand count
    pure [make a f d n]
  | _ => none

/-- The one operand of format A. -/
def singleByteOperand (make : Byte → Instr) : List Nat → Option (List Instr)
  | [n] => (byteOperand n).map (fun b => [make b])
  | _ => none

/-- No operand, format N. -/
def noOperand (i : Instr) : List Nat → Option (List Instr)
  | [] => some [i]
  | _ => none

/-- The commands of a line with its name and operands read (R91, R92). -/
def lineCommands (cfg : Cfg) (name : LineName) (operands : List Nat) : Option (List Instr) :=
  match name with
  | .command .rst => noOperand .rst operands
  | .command .rd => singleByteOperand .rd operands
  | .command .clri => noOperand .clri operands
  | .command .push => singleByteOperand .push operands
  | .command .clro => noOperand .clro operands
  | .command .pop => noOperand .pop operands
  | .command .crci => noOperand .crci operands
  | .command .crcu => singleByteOperand .crcu operands
  | .command .crcb => noOperand .crcb operands
  | .command .encw => headerOperands .encw operands
  | .command .encr => headerOperands .encr operands
  | .command .decr =>
    match operands with
    | [n] => (wordOperand n).map (fun count => [.decr count])
    | _ => none
  | .load => (operands.mapM byteOperand).bind (fun bytes => expandPseudo cfg (.load bytes))
  | .checksum => (operands.mapM byteOperand).bind (fun bytes => expandPseudo cfg (.checksum bytes))
  | .checksumb => (operands.mapM byteOperand).bind (fun bytes => expandPseudo cfg (.checksumb bytes))
  | .writeregs =>
    match operands with
    | [addr, count] => do
      let d ← wordOperand addr
      let n ← wordOperand count
      expandPseudo cfg (.writeregs d n)
    | _ => none
  | .readregs =>
    match operands with
    | [addr, count] => do
      let d ← wordOperand addr
      let n ← wordOperand count
      expandPseudo cfg (.readregs d n)
    | _ => none
  | .drain =>
    match operands with
    | [n] => expandPseudo cfg (.drain n)
    | _ => none

/-- One line: `;` starts a comment, a line with nothing before it holds no command (R91). -/
def readLine (cfg : Cfg) (cs : List Char) : Option (List Instr) :=
  match trimBlanks (cs.takeWhile (fun c => c != ';')) with
  | [] => some []
  | c :: rest =>
    let text := c :: rest
    match lineNames.find? (fun entry => entry.1.toList == text.takeWhile (fun x => !isBlank x)) with
    | none => none
    | some entry =>
      (readOperands (text.dropWhile (fun x => !isBlank x))).bind (lineCommands cfg entry.2)

/-- A program: "a sequence of lines, executed top to bottom" (R91); none if a line cannot be read. -/
def assembleText (cfg : Cfg) (text : String) : Option (List Instr) :=
  ((splitAtChar '\n' text.toList).mapM (readLine cfg)).map List.flatten

end Sys2Proof.Machine
end

