-- ==== Sys2Proof/Safety.lean ====
section
/-!
DEFINITION. What claims call a good state, a good answer and a well-behaved host.
-/

namespace Sys2Proof.Safety

open Sys2Proof.Machine

/-- A response word as spec/30_encoding.md R73 and 60_exceptions.md R181 allow: bits 15:8 zero, ERR at
most 5, and VAL 0 whenever ERR is not 0. -/
abbrev LegalResponse (r : ResponseWord) : Prop :=
  respZero r = 0 ∧ (respErr r).toNat ≤ 5 ∧ (respErr r ≠ 0 → respVal r = 0)

/-- The invariants of 10_state.md R35 (buffers within their capacities, STATUS bits 15:5 zero), and that
the response word last returned, if any, is a legal one. -/
def Inv (s : State) : Prop :=
  Memory.wf s ∧ s.status >>> 5 = 0 ∧ ∀ r, s.response = some r → LegalResponse r

/-- The command completes: the outcome is a next state with these values of the block's four items
(10_state.md R36) and this response word. -/
def Answers (o : Result) (crc status : Word) (ibuf obuf : List Byte) (r : ResponseWord) : Prop :=
  ∃ t : State, o = .next t ∧ t.crc = crc ∧ t.status = status ∧ t.ibuf = ibuf ∧ t.obuf = obuf ∧
    t.response = some r

/-- The command fails with E_ILLEGAL: STATUS bit 0 set, response `resp(0, 1)`, nothing else of the block
changed (60_exceptions.md R184). -/
def AnswersIllegal (o : Result) (s : State) : Prop :=
  Answers o s.crc (s.status ||| 0x0001) s.ibuf s.obuf (resp 0 1)

/-- The block has answered its last command without an error. The host tests ERR, not VAL
(70_reset_and_hazards.md R225). -/
abbrev Succeeded (s : State) : Prop := ∃ v : Word, s.response = some (resp v 0)

/-- The block has answered its last command with this error. -/
abbrev FailedWith (e : ErrorCode) (s : State) : Prop := s.response = some (resp 0 e.code)

/-- The host's part of the byte-count invariant: the payload is two bytes per register
(30_encoding.md R88, 70_reset_and_hazards.md R223). The block does not check it. -/
abbrev HostKeepsByteCount (count : Word) (s : State) : Prop := s.ibuf.length = 2 * count.toNat

end Sys2Proof.Safety
end

