-- ==== Sys2Proof/Certificates/Slice0/Obligations.lean ====
section
/-!
DEFINITION. The statements about the block, each from the numbered rules of spec/ or derived from them.
`Answers` (Sys2Proof/Safety.lean) gives all four items of the state of 10_state.md R36 after a command,
so a statement that uses it states the command's frame too.
-/

open Sys2Proof Sys2Proof.Machine Sys2Proof.Safety

/-- The match and mask columns of 30_encoding.md R76, row by row. -/
def Sys2Proof.Safety.specRows : List (CommandWord × CommandWord) :=
  [(0x0000000000000001, 0xFFFFFFFFFFFFFFFF), (0x0000000000000002, 0xFFFFFFFFFFFF00FF),
   (0x0000000000000010, 0xFFFFFFFFFFFFFFFF), (0x0000000000000011, 0xFFFFFFFFFFFF00FF),
   (0x0000000000000012, 0xFFFFFFFFFFFFFFFF), (0x0000000000000013, 0xFFFFFFFFFFFFFFFF),
   (0x0000000000000020, 0xFFFFFFFFFFFFFFFF), (0x0000000000000021, 0xFFFFFFFFFFFF00FF),
   (0x0000000000000022, 0xFFFFFFFFFFFFFFFF), (0x0000000000000030, 0xFF000000000000FF),
   (0x0000000000000031, 0xFF000000000000FF), (0x0000000000000032, 0xFF0000FFFFFFFFFF)]

/-! ## Encoding -/

/-- R71: every field is its slice of the word, the word is the sum of its fields in their places, and RSV
must be zero. -/
def Obligations.CommandWordFields : Prop :=
  ∀ cw : CommandWord,
    (opField cw).toNat = cw.toNat % 2 ^ 8 ∧
    (aField cw).toNat = cw.toNat / 2 ^ 8 % 2 ^ 8 ∧
    (funcField cw).toNat = cw.toNat / 2 ^ 16 % 2 ^ 8 ∧
    (addrField cw).toNat = cw.toNat / 2 ^ 24 % 2 ^ 16 ∧
    (countField cw).toNat = cw.toNat / 2 ^ 40 % 2 ^ 16 ∧
    (rsvField cw).toNat = cw.toNat / 2 ^ 56 ∧
    cw.toNat = (opField cw).toNat + (aField cw).toNat * 2 ^ 8 + (funcField cw).toNat * 2 ^ 16
      + (addrField cw).toNat * 2 ^ 24 + (countField cw).toNat * 2 ^ 40
      + (rsvField cw).toNat * 2 ^ 56 ∧
    (rsvField cw ≠ 0 → ∃ e, decode cw = .error e)

/-- A few command words of 95_test_vectors.md decode to the commands they stand for. -/
def Obligations.DecodeSpecifiedWords : Prop :=
  decode 0x0000000000000001 = .ok .rst ∧
  decode 0x0000000000000B02 = .ok (.rd 0x0B) ∧
  decode 0x000000000000C511 = .ok (.push 0xC5) ∧
  decode 0x000000000000FF21 = .ok (.crcu 0xFF) ∧
  decode 0x000001FC17100930 = .ok (.encw 0x09 0x10 0xFC17 0x0001) ∧
  decode 0x0001020002FFFF31 = .ok (.encr 0xFF 0xFF 0x0002 0x0102) ∧
  decode 0x0000810000000032 = .ok (.decr 129)

/-- Decode of encode is the identity on well-formed commands (R71, R72, R76, R81). -/
def Obligations.DecodeOfEncode : Prop :=
  ∀ i : Instr, WellFormed i = true → decode (encode i) = .ok i

/-- A word that decodes is the encoding of what it decodes to, which is well-formed: no two words decode
to one command, and no bit of a word is ignored (R78, R80, R81). -/
def Obligations.EncodeOfDecode : Prop :=
  ∀ (cw : CommandWord) (i : Instr), decode cw = .ok i → WellFormed i = true ∧ encode i = cw

/-- R80: no word matches two rows of R76, and a word that matches none is illegal. -/
def Obligations.WordsMatchAtMostOneRow : Prop :=
  ∀ cw : CommandWord,
    (∀ r₁ ∈ specRows, ∀ r₂ ∈ specRows, cw &&& r₁.2 = r₁.1 → cw &&& r₂.2 = r₂.1 → r₁ = r₂) ∧
    ((∀ r ∈ specRows, cw &&& r.2 ≠ r.1) → ∃ e, decode cw = .error e)

/-- R77: a reserved opcode fails with E_ILLEGAL and changes no state except STATUS. -/
def Obligations.ReservedOpcodesAreIllegal : Prop :=
  ∀ (s : State) (cw : CommandWord) (rest : List HostInput), s.inputs = .command cw :: rest →
    cw.toNat % 2 ^ 8 ∉
      [0x01, 0x02, 0x10, 0x11, 0x12, 0x13, 0x20, 0x21, 0x22, 0x30, 0x31, 0x32] →
    AnswersIllegal (step s) s

/-- R78: a defined opcode with a non-zero unused field or RSV fails with E_ILLEGAL and changes no state
except STATUS. -/
def Obligations.ReservedFieldsAreIllegal : Prop :=
  ∀ (s : State) (cw : CommandWord) (rest : List HostInput), s.inputs = .command cw :: rest →
    ∀ r ∈ specRows, cw.toNat % 2 ^ 8 = r.1.toNat → cw &&& r.2 ≠ r.1 → AnswersIllegal (step s) s

/-- R79: RD of a reserved register number fails with E_ILLEGAL, presented as a word or executed. -/
def Obligations.ReservedRegistersAreIllegal : Prop :=
  ∀ (s : State) (reg : Byte), reg.toNat ∉ [0, 1, 2, 3, 4, 8, 9, 10, 11, 12, 13] →
    AnswersIllegal (exec (.rd reg) s) s ∧
    ∀ rest, s.inputs = .command (BitVec.ofNat 64 (0x02 + reg.toNat * 2 ^ 8)) :: rest →
      AnswersIllegal (step s) s

/-! ## The step -/

/-- When the presented word decodes, the step is `exec` of the command, and that uses the word up and
nothing else the host presents. The list of inputs is the model's (log entry 1). -/
def Obligations.StepRunsDecodedInstruction : Prop :=
  ∀ (s : State) (cw : CommandWord) (rest : List HostInput) (i : Instr),
    s.inputs = .command cw :: rest → decode cw = .ok i →
    step s = exec i s ∧ ∃ t, exec i s = .next t ∧ t.inputs = rest

/-- R184: an illegal word is answered with E_ILLEGAL, and STATUS bit 0 is all that changes. -/
def Obligations.StepRaisesOnIllegalWord : Prop :=
  ∀ (s : State) (cw : CommandWord) (rest : List HostInput) (e : DecodeError),
    s.inputs = .command cw :: rest → decode cw = .error e → AnswersIllegal (step s) s

/-- The other two kinds of step: a hardware reset (R211) leaves the reset state with the host's later
inputs, and with nothing presented the state stays (the model's choices, log entries 1 to 3). -/
def Obligations.ResetStepAndIdleStep : Prop :=
  ∀ s : State,
    (∀ rest, s.inputs = .hardwareReset :: rest → step s = .next { State.reset with inputs := rest }) ∧
    (s.inputs = [] → step s = .next s)

/-- R34, R210: after reset, hardware reset and RST the four items and every register have the values the
spec gives. -/
def Obligations.ResetLeavesSpecifiedState : Prop :=
  ∀ t : State,
    (t = State.reset ∨ (∃ s rest, s.inputs = .hardwareReset :: rest ∧ step s = .next t) ∨
      ∃ s, exec .rst s = .next t) →
    t.crc = 0xFFFF ∧ t.status = 0x0000 ∧ t.ibuf = [] ∧ t.obuf = [] ∧
    readRegister Config.mfc .crcw t = 0xFFFF ∧
    readRegister Config.mfc .ilen t = 0 ∧ readRegister Config.mfc .olen t = 0 ∧
    readRegister Config.mfc .slaveId t = 0x0009 ∧ readRegister Config.mfc .fcWrite t = 0x0010 ∧
    readRegister Config.mfc .fcRead t = 0x0003 ∧ readRegister Config.mfc .wBase t = 0x03E8 ∧
    readRegister Config.mfc .rBase t = 0x07D0 ∧ readRegister Config.mfc .wrLen t = 0x0008

/-- The invariant of R35 and R73 holds at reset. -/
def Obligations.ResetMeetsInvariant : Prop := Inv State.reset

/-- Every step answers a next state, and keeps the invariant of R35 and R73: buffers within their
capacities, STATUS bits 15:5 zero, the response word a legal one. -/
def Obligations.StepKeepsInvariant : Prop :=
  ∀ s : State, Inv s → ∃ t, step s = .next t ∧ Inv t

/-- R231: whatever the host presents is answered, one input a step, for as long as it likes, and the
invariant holds throughout. -/
def Obligations.EveryInputSequenceIsAnswered : Prop :=
  ∀ (k : Nat) (s : State), Inv s →
    ∃ t : State, Host.Core.run Sys2Proof.core k s = .next t ∧ Inv t ∧ t.inputs = s.inputs.drop k

/-! ## Responses, errors, STATUS -/

/-- R73: every command returns a response word of the stated layout, with VAL 0 whenever ERR is not. -/
def Obligations.EveryCommandReturnsResponse : Prop :=
  ∀ (s : State) (cw : CommandWord) (rest : List HostInput), s.inputs = .command cw :: rest →
    ∃ (t : State) (r : ResponseWord) (val : Word) (err : Byte),
      step s = .next t ∧ t.response = some r ∧ r.toNat = err.toNat + val.toNat * 2 ^ 16 ∧
      r.extractLsb' 0 8 = err ∧ r.extractLsb' 8 8 = (0 : Byte) ∧ r.extractLsb' 16 16 = val ∧
      (err ≠ 0 → val = 0)

/-- R181: which code a command word is answered with, exactly when, and the STATUS bit that goes with
it; codes above 5 are never returned, and nothing beyond the code is recorded. -/
def Obligations.ErrorCodesAndCauses : Prop :=
  ∀ (s : State) (cw : CommandWord) (rest : List HostInput), s.inputs = .command cw :: rest →
    ∃ (t : State) (val : Word) (err : Byte),
      step s = .next t ∧ t.response = some (resp val err) ∧ err.toNat ≤ 5 ∧
      (err = 1 ↔ ∃ e, decode cw = .error e) ∧
      (err = 2 ↔ ∃ n, decode cw = .ok (.decr n) ∧ s.ibuf.length < 3 + 2 * n.toNat + 2) ∧
      (err = 3 ↔ ∃ b, decode cw = .ok (.push b) ∧ s.ibuf.length = 264) ∧
      (err = 4 ↔ decode cw = .ok .pop ∧ s.obuf.length = 0) ∧
      (err = 5 ↔
        (∃ a f d n, decode cw = .ok (.encw a f d n) ∧
          (s.ibuf.length > 255 ∨ d.toNat + 0x03E8 > 0xFFFF)) ∨
        (∃ a f d n, decode cw = .ok (.encr a f d n) ∧ d.toNat + 0x07D0 > 0xFFFF)) ∧
      (err ≠ 0 → val = 0 ∧ t.status = s.status ||| 1#16 <<< (err.toNat - 1) ∧ t.crc = s.crc ∧
        t.ibuf = s.ibuf ∧ (t.obuf = s.obuf ∨ t.obuf = []))

/-- R183: what a failing command does: OBUF emptied by a failing ENCW, ENCR or DECR and by no other, the
STATUS bit set, `resp(0, code)`, nothing else. -/
def Obligations.RaiseChangesOnlyStatusAndObuf : Prop :=
  ∀ (s t : State) (cw : CommandWord) (rest : List HostInput) (val : Word) (err : Byte),
    s.inputs = .command cw :: rest → step s = .next t → t.response = some (resp val err) → err ≠ 0 →
    val = 0 ∧ t.crc = s.crc ∧ t.ibuf = s.ibuf ∧ t.status = s.status ||| 1#16 <<< (err.toNat - 1) ∧
    t.obuf =
      (match decode cw with
       | .ok (.encw _ _ _ _) => []
       | .ok (.encr _ _ _ _) => []
       | .ok (.decr _) => []
       | _ => s.obuf)

/-- R191: an illegal word is reported as such whatever the buffers hold, an ENCW word with a non-zero RSV
among them, and a legal command has at most one error code. -/
def Obligations.DecodeErrorsComeFirst : Prop :=
  (∀ (s : State) (cw : CommandWord) (rest : List HostInput), s.inputs = .command cw :: rest →
    (∃ e, decode cw = .error e) ∨ (cw.toNat % 2 ^ 8 = 0x30 ∧ 2 ^ 56 ≤ cw.toNat) →
    AnswersIllegal (step s) s) ∧
  ∀ i : Instr, WellFormed i = true → ∃ e : ErrorCode, e ≠ .illegal ∧
    ∀ s t : State, exec i s = .next t → Succeeded t ∨ FailedWith e t

/-- R25: STATUS is sticky. A failing command adds its bit, a succeeding one leaves it, RST and hardware
reset alone clear it, and nothing but RD STATUS depends on it. -/
def Obligations.StatusIsSticky : Prop :=
  (∀ (s t : State) (cw : CommandWord) (rest : List HostInput), s.inputs = .command cw :: rest →
    decode cw ≠ .ok .rst → step s = .next t →
    (Succeeded t ∧ t.status = s.status) ∨
      ∃ e : ErrorCode, FailedWith e t ∧ t.status = s.status ||| 1#16 <<< (e.code.toNat - 1)) ∧
  (∀ s : State, ∃ t, exec .rst s = .next t ∧ t.status = 0) ∧
  (∀ (s : State) (rest : List HostInput), s.inputs = .hardwareReset :: rest →
    ∃ t, step s = .next t ∧ t.status = 0) ∧
  ∀ (s : State) (cw : CommandWord) (rest : List HostInput) (v : Word),
    s.inputs = .command cw :: rest → decode cw ≠ .ok (.rd 0x02) →
    ∃ t t' : State, step s = .next t ∧ step { s with status := v } = .next t' ∧
      t'.crc = t.crc ∧ t'.ibuf = t.ibuf ∧ t'.obuf = t.obuf ∧ t'.response = t.response

/-- The frame of every command (10_state.md R22, R25, R26, R27): CRC, IBUF and OBUF are unchanged but by
the commands the spec names, CRC and IBUF by no failing command, and STATUS by no succeeding one but
RST. -/
def Obligations.CommandsLeaveTheRestAlone : Prop :=
  ∀ (i : Instr) (s t : State), exec i s = .next t →
    (t.crc ≠ s.crc → opcodeOf i ∈ [.rst, .crci, .crcu, .crcb, .encw, .encr] ∧ Succeeded t) ∧
    (t.ibuf ≠ s.ibuf → opcodeOf i ∈ [.rst, .clri, .push] ∧ Succeeded t) ∧
    (t.obuf ≠ s.obuf → opcodeOf i ∈ [.rst, .clro, .pop, .encw, .encr, .decr]) ∧
    (t.status ≠ s.status → opcodeOf i = .rst ∨ ∃ e, FailedWith e t)

/-! ## System commands -/

/-- R170: RST's effect, that no other command clears a STATUS bit, and that a word with the opcode and
any other bit set is illegal. -/
def Obligations.RstCommand : Prop :=
  (∀ s : State, Answers (exec .rst s) 0xFFFF 0x0000 [] [] (resp 0 0)) ∧
  (∀ (i : Instr) (s t : State), i ≠ .rst → exec i s = .next t → s.status &&& t.status = s.status) ∧
  decode 0x0000000000000001 = .ok .rst ∧
  ∀ cw : CommandWord, cw.toNat % 2 ^ 8 = 0x01 → cw.toNat ≠ 1 → ∃ e, decode cw = .error e

/-- R171: the eleven registers and the reserved numbers. -/
def Obligations.RdCommand : Prop :=
  ∀ (s : State) (reg : Byte),
    (∀ v : Word,
      (reg, v) ∈ [((0x00 : Byte), s.crc),
        (0x01, BitVec.ofNat 16 (s.crc.toNat % 2 ^ 8 * 2 ^ 8 + s.crc.toNat / 2 ^ 8)),
        (0x02, s.status), (0x03, BitVec.ofNat 16 s.ibuf.length),
        (0x04, BitVec.ofNat 16 s.obuf.length), (0x08, 0x0009), (0x09, 0x0010), (0x0A, 0x0003),
        (0x0B, 0x03E8), (0x0C, 0x07D0), (0x0D, 0x0008)] →
      Answers (exec (.rd reg) s) s.crc s.status s.ibuf s.obuf (resp v 0) ∧
      decode (BitVec.ofNat 64 (0x02 + reg.toNat * 2 ^ 8)) = .ok (.rd reg)) ∧
    (reg.toNat ∉ [0, 1, 2, 3, 4, 8, 9, 10, 11, 12, 13] →
      AnswersIllegal (exec (.rd reg) s) s ∧
      ∃ e, decode (BitVec.ofNat 64 (0x02 + reg.toNat * 2 ^ 8)) = .error e)

/-- R23, R68: the CRCW view is the number the two wire bytes make read big-endian. -/
def Obligations.CrcwIsWireOrder : Prop :=
  ∀ s : State, ∃ first second : Byte,
    lowByteFirst s.crc = [first, second] ∧
    Answers (exec (.rd 0x01) s) s.crc s.status s.ibuf s.obuf
      (resp (BitVec.ofNat 16 (first.toNat * 2 ^ 8 + second.toNat)) 0) ∧
    (s.crc = 0xCDC5 → first = 0xC5 ∧ second = 0xCD)

/-! ## Buffer commands -/

/-- R160. -/
def Obligations.ClriCommand : Prop :=
  decode 0x0000000000000010 = .ok .clri ∧
  ∀ s : State, Answers (exec .clri s) s.crc s.status [] s.obuf (resp 0 0)

/-- R161. -/
def Obligations.PushCommand : Prop :=
  ∀ (data : Byte) (s : State),
    decode (BitVec.ofNat 64 (0x11 + data.toNat * 2 ^ 8)) = .ok (.push data) ∧
    (s.ibuf.length = 264 →
      Answers (exec (.push data) s) s.crc (s.status ||| 0x0004) s.ibuf s.obuf (resp 0 3)) ∧
    (s.ibuf.length ≠ 264 →
      Answers (exec (.push data) s) s.crc s.status (s.ibuf ++ [data]) s.obuf
        (resp (BitVec.ofNat 16 (s.ibuf.length + 1)) 0))

/-- R162. -/
def Obligations.ClroCommand : Prop :=
  decode 0x0000000000000012 = .ok .clro ∧
  ∀ s : State, Answers (exec .clro s) s.crc s.status s.ibuf [] (resp 0 0)

/-- R163: one POP. -/
def Obligations.PopCommand : Prop :=
  decode 0x0000000000000013 = .ok .pop ∧
  ∀ s : State,
    (s.obuf = [] → Answers (exec .pop s) s.crc (s.status ||| 0x0008) s.ibuf [] (resp 0 4)) ∧
    ∀ b rest, s.obuf = b :: rest →
      Answers (exec .pop s) s.crc s.status s.ibuf rest (resp (b.setWidth 16) 0)

/-- R163: successive POPs return OBUF in sequence order, as many as it has bytes, and the one after the
last byte fails with E_EMPTY; `k = 0` is one POP. -/
def Obligations.DrainReturnsObufInOrder : Prop :=
  decode 0x0000000000000013 = .ok .pop ∧
  ∀ (s : State) (k : Nat), k ≤ s.obuf.length →
    s.inputs = hostProgram (List.replicate (k + 1) .pop) →
    ∃ t : State, Host.Core.run Sys2Proof.core (k + 1) s = .next t ∧ t.crc = s.crc ∧ t.ibuf = s.ibuf ∧
      t.obuf = s.obuf.drop (k + 1) ∧
      (∀ b, s.obuf[k]? = some b → t.response = some (resp (b.setWidth 16) 0) ∧ t.status = s.status) ∧
      (k = s.obuf.length → t.response = some (resp 0 4) ∧ t.status = s.status ||| 0x0008)

/-! ## The checksum -/

/-- R11: the source's vector. -/
def Obligations.SourceChecksumVector : Prop :=
  crc16 [0x01, 0x03, 0x00, 0x00, 0x00, 0x0A] = 0xCDC5 ∧
  sealFrame [0x01, 0x03, 0x00, 0x00, 0x00, 0x0A] = [0x01, 0x03, 0x00, 0x00, 0x00, 0x0A, 0xC5, 0xCD]

/-- R114: the table form, with the 256 entries the spec prints, computes the byte step on every input. -/
def Obligations.TableFormEqualsByteStep : Prop :=
  ∀ (c : Word) (b : Byte), crcStepByTable c b = crcStep c b

/-- R115 item 3, R153: the checksum of a sequence and two more bytes is zero exactly when the two bytes
are the sequence's checksum, low byte first. -/
def Obligations.ResidueIsZeroExactlyWhenChecksumFits : Prop :=
  ∀ (bytes : List Byte) (x y : Byte),
    crc16 (bytes ++ [x, y]) = 0 ↔ [x, y] = lowByteFirst (crc16 bytes)

/-- R116. -/
def Obligations.CrciCommand : Prop :=
  decode 0x0000000000000020 = .ok .crci ∧
  ∀ s : State, Answers (exec .crci s) 0xFFFF s.status s.ibuf s.obuf (resp 0xFFFF 0)

/-- R117: one CRCU. -/
def Obligations.CrcuCommand : Prop :=
  ∀ (data : Byte) (s : State),
    decode (BitVec.ofNat 64 (0x21 + data.toNat * 2 ^ 8)) = .ok (.crcu data) ∧
    Answers (exec (.crcu data) s) (crcStep s.crc data) s.status s.ibuf s.obuf
      (resp (crcStep s.crc data) 0)

/-- R118. -/
def Obligations.CrcbCommand : Prop :=
  decode 0x0000000000000022 = .ok .crcb ∧
  ∀ s : State, Answers (exec .crcb s) (crc16 s.ibuf) s.status s.ibuf s.obuf (resp (crc16 s.ibuf) 0)

/-- R117: one CRCU folds its byte into CRC; CRCI and then one CRCU per byte leaves the checksum of those
bytes in CRC and in VAL, for any number of bytes and from any state. That the presented words are used up
(`t.inputs = []`) rests on the model's list of inputs (log entry 1). -/
def Obligations.StreamedChecksum : Prop :=
  (∀ (data : Byte) (s : State),
    decode (BitVec.ofNat 64 (0x21 + data.toNat * 2 ^ 8)) = .ok (.crcu data) ∧
    Answers (exec (.crcu data) s) (crcStep s.crc data) s.status s.ibuf s.obuf
      (resp (crcStep s.crc data) 0)) ∧
  ∀ (bytes : List Byte) (s : State) (program : List Instr),
    expandPseudo Config.mfc (.checksum bytes) = some program → s.inputs = hostProgram program →
    ∃ t : State, Host.Core.run Sys2Proof.core program.length s = .next t ∧ t.crc = crc16 bytes ∧
      t.status = s.status ∧ t.ibuf = s.ibuf ∧ t.obuf = s.obuf ∧
      t.response = some (resp (crc16 bytes) 0) ∧ t.inputs = []

/-- R92, R118: a sequence of at most 264 bytes loaded into IBUF and summed there leaves the same
checksum, and the sequence in IBUF. That the presented words are used up (`t.inputs = []`) rests on the
model's list of inputs (log entry 1). -/
def Obligations.BufferedChecksum : Prop :=
  ∀ (bytes : List Byte), bytes.length ≤ 264 →
    ∃ program, expandPseudo Config.mfc (.checksumb bytes) = some program ∧
      ∀ s : State, s.inputs = hostProgram program →
        ∃ t : State, Host.Core.run Sys2Proof.core program.length s = .next t ∧ t.crc = crc16 bytes ∧
          t.status = s.status ∧ t.ibuf = bytes ∧ t.obuf = s.obuf ∧
          t.response = some (resp (crc16 bytes) 0) ∧ t.inputs = []

/-! ## Frames -/

/-- R131: both outcomes of ENCW, whole. -/
def Obligations.EncwCommand : Prop :=
  ∀ (slave func : Byte) (addr count : Word) (s : State),
    decode (BitVec.ofNat 64 (0x30 + slave.toNat * 2 ^ 8 + func.toNat * 2 ^ 16 + addr.toNat * 2 ^ 24
      + count.toNat * 2 ^ 40)) = .ok (.encw slave func addr count) ∧
    (s.ibuf.length > 255 ∨ addr.toNat + 0x03E8 > 0xFFFF →
      Answers (exec (.encw slave func addr count) s) s.crc (s.status ||| 0x0010) s.ibuf []
        (resp 0 5)) ∧
    ∀ (a : Word) (body : List Byte), s.ibuf.length ≤ 255 → a.toNat = addr.toNat + 0x03E8 →
      body = [slave, func, a.extractLsb' 8 8, a.extractLsb' 0 8, count.extractLsb' 8 8,
        count.extractLsb' 0 8, BitVec.ofNat 8 s.ibuf.length] ++ s.ibuf →
      Answers (exec (.encw slave func addr count) s) (crc16 body) s.status s.ibuf
        (body ++ [(crc16 body).extractLsb' 0 8, (crc16 body).extractLsb' 8 8])
        (resp (BitVec.ofNat 16 (9 + s.ibuf.length)) 0)

/-- R132: both outcomes of ENCR, whole. -/
def Obligations.EncrCommand : Prop :=
  ∀ (slave func : Byte) (addr count : Word) (s : State),
    decode (BitVec.ofNat 64 (0x31 + slave.toNat * 2 ^ 8 + func.toNat * 2 ^ 16 + addr.toNat * 2 ^ 24
      + count.toNat * 2 ^ 40)) = .ok (.encr slave func addr count) ∧
    (addr.toNat + 0x07D0 > 0xFFFF →
      Answers (exec (.encr slave func addr count) s) s.crc (s.status ||| 0x0010) s.ibuf []
        (resp 0 5)) ∧
    ∀ (a : Word) (body : List Byte), a.toNat = addr.toNat + 0x07D0 →
      body = [slave, func, a.extractLsb' 8 8, a.extractLsb' 0 8, count.extractLsb' 8 8,
        count.extractLsb' 0 8] →
      Answers (exec (.encr slave func addr count) s) (crc16 body) s.status s.ibuf
        (body ++ [(crc16 body).extractLsb' 0 8, (crc16 body).extractLsb' 8 8]) (resp 8 0)

/-- R130: the largest accepted ADDR of each encode command; above it, E_RANGE. -/
def Obligations.StartAddressRange : Prop :=
  ∀ (slave func : Byte) (addr count : Word) (s : State),
    (s.ibuf.length ≤ 255 → ∃ t, exec (.encw slave func addr count) s = .next t ∧
      (addr.toNat ≤ 0xFC17 → Succeeded t ∧ ∃ hi lo, t.obuf[2]? = some hi ∧ t.obuf[3]? = some lo ∧
        hi.toNat * 2 ^ 8 + lo.toNat = addr.toNat + 0x03E8) ∧
      (0xFC17 < addr.toNat → FailedWith .range t)) ∧
    ∃ t, exec (.encr slave func addr count) s = .next t ∧
      (addr.toNat ≤ 0xF82F → Succeeded t ∧ ∃ hi lo, t.obuf[2]? = some hi ∧ t.obuf[3]? = some lo ∧
        hi.toNat * 2 ^ 8 + lo.toNat = addr.toNat + 0x07D0) ∧
      (0xF82F < addr.toNat → FailedWith .range t)

/-- R83: the bytes of a write request by index. -/
def Obligations.WriteRequestLayout : Prop :=
  ∀ (slave func : Byte) (addr count : Word) (s : State), s.ibuf.length ≤ 255 →
    addr.toNat + 0x03E8 ≤ 0xFFFF →
    ∃ t, exec (.encw slave func addr count) s = .next t ∧ t.obuf.length = 9 + s.ibuf.length ∧
      t.obuf[0]? = some slave ∧ t.obuf[1]? = some func ∧
      t.obuf[2]? = some (BitVec.ofNat 8 ((addr.toNat + 0x03E8) / 256)) ∧
      t.obuf[3]? = some (BitVec.ofNat 8 ((addr.toNat + 0x03E8) % 256)) ∧
      t.obuf[4]? = some (BitVec.ofNat 8 (count.toNat / 256)) ∧
      t.obuf[5]? = some (BitVec.ofNat 8 (count.toNat % 256)) ∧
      t.obuf[6]? = some (BitVec.ofNat 8 s.ibuf.length) ∧
      (∀ k, k < s.ibuf.length → t.obuf[7 + k]? = s.ibuf[k]?) ∧
      t.obuf[7 + s.ibuf.length]? = some (lowByte (crc16 (t.obuf.take (7 + s.ibuf.length)))) ∧
      t.obuf[8 + s.ibuf.length]? = some (highByte (crc16 (t.obuf.take (7 + s.ibuf.length))))

/-- R84: the bytes of a read request by index. -/
def Obligations.ReadRequestLayout : Prop :=
  ∀ (slave func : Byte) (addr count : Word) (s : State), addr.toNat + 0x07D0 ≤ 0xFFFF →
    ∃ t, exec (.encr slave func addr count) s = .next t ∧ t.obuf.length = 8 ∧
      t.obuf[0]? = some slave ∧ t.obuf[1]? = some func ∧
      t.obuf[2]? = some (BitVec.ofNat 8 ((addr.toNat + 0x07D0) / 256)) ∧
      t.obuf[3]? = some (BitVec.ofNat 8 ((addr.toNat + 0x07D0) % 256)) ∧
      t.obuf[4]? = some (BitVec.ofNat 8 (count.toNat / 256)) ∧
      t.obuf[5]? = some (BitVec.ofNat 8 (count.toNat % 256)) ∧
      t.obuf[6]? = some (lowByte (crc16 (t.obuf.take 6))) ∧
      t.obuf[7]? = some (highByte (crc16 (t.obuf.take 6)))

/-- R89, R115 items 3 and 4: a built frame ends with the checksum of every preceding byte, low byte
first; CRC holds it; and the checksum of the whole frame is zero. -/
def Obligations.BuiltFramesCheckThemselves : Prop :=
  ∀ (i : Instr) (s t : State), opcodeOf i = .encw ∨ opcodeOf i = .encr → exec i s = .next t →
    Succeeded t →
    t.crc = crc16 (t.obuf.take (t.obuf.length - 2)) ∧
    t.obuf.drop (t.obuf.length - 2) = lowByteFirst t.crc ∧ crc16 t.obuf = 0

/-- R134: the byte count is the payload length whatever COUNT says: the command succeeds, its checksum is
right and no STATUS bit records it. Only a host that keeps the byte-count invariant (R88) gets a frame
whose byte count is twice its register count. -/
def Obligations.ByteCountIsPayloadLength : Prop :=
  ∀ (slave func : Byte) (addr count : Word) (s : State), s.ibuf.length ≤ 255 →
    addr.toNat + 0x03E8 ≤ 0xFFFF →
    ∃ t n, exec (.encw slave func addr count) s = .next t ∧ Succeeded t ∧ t.status = s.status ∧
      t.obuf[6]? = some n ∧ n.toNat = s.ibuf.length ∧
      (n.toNat = 2 * count.toNat ↔ HostKeepsByteCount count s) ∧
      t.obuf.drop (t.obuf.length - 2) = lowByteFirst (crc16 (t.obuf.take (t.obuf.length - 2)))

/-- R135, R90: slave id and function code, whatever they are, are copied into bytes 0 and 1, and the
kind of the frame does not depend on them. -/
def Obligations.SlaveAndFunctionAreCopied : Prop :=
  ∀ (slave func slave' func' : Byte) (addr count : Word) (s : State),
    (s.ibuf.length ≤ 255 → addr.toNat + 0x03E8 ≤ 0xFFFF →
      ∃ t t', exec (.encw slave func addr count) s = .next t ∧
        exec (.encw slave' func' addr count) s = .next t' ∧ t.obuf.take 2 = [slave, func] ∧
        (t.obuf.drop 2).dropLast.dropLast = (t'.obuf.drop 2).dropLast.dropLast) ∧
    (addr.toNat + 0x07D0 ≤ 0xFFFF →
      ∃ t t', exec (.encr slave func addr count) s = .next t ∧
        exec (.encr slave' func' addr count) s = .next t' ∧ t.obuf.take 2 = [slave, func] ∧
        (t.obuf.drop 2).dropLast.dropLast = (t'.obuf.drop 2).dropLast.dropLast)

/-- R136: ENCW's result is a function of its operands and IBUF only, ENCR's of its operands only. -/
def Obligations.EncodingIsDeterministic : Prop :=
  ∀ (slave func : Byte) (addr count : Word) (s s' : State),
    (s'.ibuf = s.ibuf →
      ∃ t t', exec (.encw slave func addr count) s = .next t ∧
        exec (.encw slave func addr count) s' = .next t' ∧ t'.obuf = t.obuf ∧
        t'.response = t.response ∧ (Succeeded t → t'.crc = t.crc)) ∧
    ∃ t t', exec (.encr slave func addr count) s = .next t ∧
      exec (.encr slave func addr count) s' = .next t' ∧ t'.obuf = t.obuf ∧
      t'.response = t.response ∧ (Succeeded t → t'.crc = t.crc)

/-- R138: a failing encode command, and an encode word that does not decode. -/
def Obligations.FailingEncodeCommand : Prop :=
  (∀ (i : Instr) (s t : State), opcodeOf i = .encw ∨ opcodeOf i = .encr → exec i s = .next t →
    ¬ Succeeded t →
    t.obuf = [] ∧ t.status = s.status ||| 0x0010 ∧ t.response = some (resp 0 5) ∧ t.crc = s.crc ∧
      t.ibuf = s.ibuf) ∧
  ∀ (s : State) (cw : CommandWord) (rest : List HostInput), s.inputs = .command cw :: rest →
    cw.toNat % 2 ^ 8 = 0x30 ∨ cw.toNat % 2 ^ 8 = 0x31 → (∃ e, decode cw = .error e) →
    AnswersIllegal (step s) s

/-- R150: both outcomes of DECR, whole. -/
def Obligations.DecrCommand : Prop :=
  ∀ (count : Word) (s : State),
    decode (BitVec.ofNat 64 (0x32 + count.toNat * 2 ^ 40)) = .ok (.decr count) ∧
    (s.ibuf.length < 3 + 2 * count.toNat + 2 →
      Answers (exec (.decr count) s) s.crc (s.status ||| 0x0002) s.ibuf [] (resp 0 2)) ∧
    (3 + 2 * count.toNat + 2 ≤ s.ibuf.length →
      Answers (exec (.decr count) s) s.crc s.status s.ibuf
        ((s.ibuf.drop 3).take (2 * count.toNat)) (resp (BitVec.ofNat 16 (2 * count.toNat)) 0))

/-- R151: the length test does not wrap, for any COUNT; COUNT `0xFFFF` needs 131075 bytes. -/
def Obligations.DecrLengthTestDoesNotWrap : Prop :=
  ∀ (n : Word) (s : State), ∃ t, exec (.decr n) s = .next t ∧
    (FailedWith .short t ↔ s.ibuf.length < 3 + 2 * n.toNat + 2) ∧
    (n = 0xFFFF → (Succeeded t ↔ 131075 ≤ s.ibuf.length))

/-- R154: a response of header, payload and two checksum bytes decodes to exactly its payload. -/
def Obligations.DecrReturnsPayloadUnchanged : Prop :=
  ∀ (sl f k x y : Byte) (p : List Byte) (n : Word) (s : State), p.length = 2 * n.toNat →
    s.ibuf = [sl, f, k] ++ p ++ [x, y] →
    Answers (exec (.decr n) s) s.crc s.status s.ibuf p (resp (BitVec.ofNat 16 (2 * n.toNat)) 0)

/-- R152, R153: DECR depends on the number of bytes and the payload bytes of IBUF only; header, checksum
and tail are not examined, and CRC and STATUS play no part. -/
def Obligations.DecrDoesNotValidate : Prop :=
  ∀ (n : Word) (s s' : State), s'.ibuf.length = s.ibuf.length →
    (∀ k, 3 ≤ k → k < 3 + 2 * n.toNat → s'.ibuf[k]? = s.ibuf[k]?) →
    ∃ t t', exec (.decr n) s = .next t ∧ exec (.decr n) s' = .next t' ∧ t'.obuf = t.obuf ∧
      t'.response = t.response ∧ t'.crc = s'.crc ∧ t'.ibuf = s'.ibuf

/-- R156: a failing DECR, and a DECR word that does not decode. -/
def Obligations.FailingDecr : Prop :=
  (∀ (n : Word) (s t : State), exec (.decr n) s = .next t → ¬ Succeeded t →
    t.obuf = [] ∧ t.status = s.status ||| 0x0002 ∧ t.response = some (resp 0 2) ∧ t.crc = s.crc ∧
      t.ibuf = s.ibuf) ∧
  ∀ (s : State) (cw : CommandWord) (rest : List HostInput), s.inputs = .command cw :: rest →
    cw.toNat % 2 ^ 8 = 0x32 → (∃ e, decode cw = .error e) →
    AnswersIllegal (step s) s

/-! ## Boot and pseudo-instructions -/

/-- R213: what the commands do straight after reset. -/
def Obligations.CommandsAfterReset : Prop :=
  (∀ b, Answers (exec (.crcu b) State.reset) (crcStep 0xFFFF b) 0 [] [] (resp (crcStep 0xFFFF b) 0)) ∧
  Answers (exec .crcb State.reset) 0xFFFF 0 [] [] (resp 0xFFFF 0) ∧
  (∀ n, Answers (exec (.decr n) State.reset) 0xFFFF 0x0002 [] [] (resp 0 2)) ∧
  Answers (exec .pop State.reset) 0xFFFF 0x0008 [] [] (resp 0 4) ∧
  Answers (exec (.encw 0x09 0x10 0 0) State.reset) 0x30F1 0 []
    [0x09, 0x10, 0x03, 0xE8, 0x00, 0x00, 0x00, 0xF1, 0x30] (resp 9 0) ∧
  Answers (exec (.encr 0x09 0x03 0 1) State.reset) 0xCF85 0 []
    [0x09, 0x03, 0x07, 0xD0, 0x00, 0x01, 0x85, 0xCF] (resp 8 0)

/-- R92: the expansions of the pseudo-instructions. -/
def Obligations.PseudoExpansions : Prop :=
  ∀ (bytes : List Byte) (addr count : Word) (n : Nat),
    expandPseudo Config.mfc (.load bytes) = some ([.clri] ++ bytes.map .push) ∧
    expandPseudo Config.mfc (.checksum bytes) = some ([.crci] ++ bytes.map .crcu) ∧
    (bytes.length ≤ 264 → expandPseudo Config.mfc (.checksumb bytes) =
      some ([.clri] ++ bytes.map .push ++ [.crcb])) ∧
    expandPseudo Config.mfc (.writeregs addr count) = some [.encw 0x09 0x10 addr count] ∧
    expandPseudo Config.mfc (.readregs addr count) = some [.encr 0x09 0x03 addr count] ∧
    expandPseudo Config.mfc (.drain n) = some (List.replicate n .pop)
end

