-- ==== Sys2Proof/Laws/Decode.lean ====
section
/-!
SUPPORT. The fields of an assembled word are the fields it was assembled from, a word is assembled from
its fields, and the mask test of a format says that the fields it does not use are zero
(spec/30_encoding.md R71, R72).
-/

namespace Sys2Proof

section Fields

variable (op a func : Byte) (addr count : Word) (rsv : Byte)

theorem assembleWord_toNat :
    (assembleWord op a func addr count rsv).toNat =
      op.toNat + a.toNat * 2 ^ 8 + func.toNat * 2 ^ 16 + addr.toNat * 2 ^ 24 + count.toNat * 2 ^ 40
        + rsv.toNat * 2 ^ 56 := by
  rw [assembleWord, BitVec.toNat_ofNat]
  exact Nat.mod_eq_of_lt (by omega)

@[simp] theorem opField_assembleWord : opField (assembleWord op a func addr count rsv) = op := by
  apply BitVec.eq_of_toNat_eq
  rw [opField, BitVec.extractLsb'_toNat, assembleWord_toNat, Nat.shiftRight_eq_div_pow]
  omega

@[simp] theorem aField_assembleWord : aField (assembleWord op a func addr count rsv) = a := by
  apply BitVec.eq_of_toNat_eq
  rw [aField, BitVec.extractLsb'_toNat, assembleWord_toNat, Nat.shiftRight_eq_div_pow]
  omega

@[simp] theorem funcField_assembleWord :
    funcField (assembleWord op a func addr count rsv) = func := by
  apply BitVec.eq_of_toNat_eq
  rw [funcField, BitVec.extractLsb'_toNat, assembleWord_toNat, Nat.shiftRight_eq_div_pow]
  omega

@[simp] theorem addrField_assembleWord :
    addrField (assembleWord op a func addr count rsv) = addr := by
  apply BitVec.eq_of_toNat_eq
  rw [addrField, BitVec.extractLsb'_toNat, assembleWord_toNat, Nat.shiftRight_eq_div_pow]
  omega

@[simp] theorem countField_assembleWord :
    countField (assembleWord op a func addr count rsv) = count := by
  apply BitVec.eq_of_toNat_eq
  rw [countField, BitVec.extractLsb'_toNat, assembleWord_toNat, Nat.shiftRight_eq_div_pow]
  omega

@[simp] theorem rsvField_assembleWord :
    rsvField (assembleWord op a func addr count rsv) = rsv := by
  apply BitVec.eq_of_toNat_eq
  rw [rsvField, BitVec.extractLsb'_toNat, assembleWord_toNat, Nat.shiftRight_eq_div_pow]
  omega

end Fields

theorem assembleWord_fields (cw : CommandWord) :
    assembleWord (opField cw) (aField cw) (funcField cw) (addrField cw) (countField cw)
      (rsvField cw) = cw := by
  apply BitVec.eq_of_toNat_eq
  rw [assembleWord_toNat]
  simp only [opField, aField, funcField, addrField, countField, rsvField, BitVec.extractLsb'_toNat,
    Nat.shiftRight_eq_div_pow]
  have := cw.isLt
  omega

/-- Two words are equal when their six fields are. -/
theorem commandWord_ext {x y : CommandWord} (h0 : opField x = opField y) (h1 : aField x = aField y)
    (h2 : funcField x = funcField y) (h3 : addrField x = addrField y)
    (h4 : countField x = countField y) (h5 : rsvField x = rsvField y) : x = y := by
  rw [← assembleWord_fields x, ← assembleWord_fields y, h0, h1, h2, h3, h4, h5]

section And

variable (x y : CommandWord)

theorem opField_and : opField (x &&& y) = opField x &&& opField y := by
  ext i hi; simp [opField]

theorem aField_and : aField (x &&& y) = aField x &&& aField y := by
  ext i hi; simp [aField]

theorem funcField_and : funcField (x &&& y) = funcField x &&& funcField y := by
  ext i hi; simp [funcField]

theorem addrField_and : addrField (x &&& y) = addrField x &&& addrField y := by
  ext i hi; simp [addrField]

theorem countField_and : countField (x &&& y) = countField x &&& countField y := by
  ext i hi; simp [countField]

theorem rsvField_and : rsvField (x &&& y) = rsvField x &&& rsvField y := by
  ext i hi; simp [rsvField]

end And

/-- Whether a format uses a field: A (R72). -/
def Format.usesA : Format → Bool
  | .n => false | .a => true | .c => false | .h => true
/-- Whether a format uses FUNC and ADDR (R72). -/
def Format.usesFuncAddr : Format → Bool
  | .n => false | .a => false | .c => false | .h => true
/-- Whether a format uses COUNT (R72). -/
def Format.usesCount : Format → Bool
  | .n => false | .a => false | .c => true | .h => true

/-- The mask test of R72 in words: OP is the row's opcode, every field the format does not use is zero,
and so is RSV. -/
theorem mask_test_iff (op : Opcode) (cw : CommandWord) :
    cw &&& op.format.mask = op.matchWord ↔
      opField cw = op.code ∧ (op.format.usesA = false → aField cw = 0) ∧
      (op.format.usesFuncAddr = false → funcField cw = 0) ∧
      (op.format.usesFuncAddr = false → addrField cw = 0) ∧
      (op.format.usesCount = false → countField cw = 0) ∧ rsvField cw = 0 := by
  have ff8 : ∀ b : Byte, b &&& 255#8 = b := fun b => BitVec.and_allOnes (x := b)
  have ff16 : ∀ b : Word, b &&& 65535#16 = b := fun b => BitVec.and_allOnes (x := b)
  have key : cw &&& op.format.mask = op.matchWord ↔
      opField cw &&& opField op.format.mask = opField op.matchWord ∧
      aField cw &&& aField op.format.mask = aField op.matchWord ∧
      funcField cw &&& funcField op.format.mask = funcField op.matchWord ∧
      addrField cw &&& addrField op.format.mask = addrField op.matchWord ∧
      countField cw &&& countField op.format.mask = countField op.matchWord ∧
      rsvField cw &&& rsvField op.format.mask = rsvField op.matchWord := by
    rw [← opField_and, ← aField_and, ← funcField_and, ← addrField_and, ← countField_and,
      ← rsvField_and]
    exact ⟨fun h => by simp [h], fun ⟨h0, h1, h2, h3, h4, h5⟩ => commandWord_ext h0 h1 h2 h3 h4 h5⟩
  rw [key]
  cases op <;>
    simp [Opcode.format, Format.mask, Opcode.matchWord, Opcode.code, Format.usesA,
      Format.usesFuncAddr, Format.usesCount, opField, aField, funcField, addrField, countField,
      rsvField, ff8, ff16]

/-- The numbers of 10_state.md R30 are those of 30_encoding.md R79. -/
theorem ofNumber_isSome (reg : Byte) :
    (BlockRegister.ofNumber? reg).isSome = decide (DefinedRegister reg) := by
  revert reg; decide +kernel

theorem ofNumber_eq_none_iff (reg : Byte) :
    BlockRegister.ofNumber? reg = none ↔ ¬ DefinedRegister reg := by
  rw [← Option.isSome_eq_false_iff.trans Option.isNone_iff_eq_none, ofNumber_isSome,
    decide_eq_false_iff_not]

end Sys2Proof
end

