-- ==== Sys2Proof/Laws/State.lean ====
section
/-!
SUPPORT. One lemma per field per update of the state, each true by definition, so that no later proof
unfolds a record update.
-/

namespace Sys2Proof.Machine

variable (s : State)

@[simp] theorem setCrc_crc (v : Word) : (s.setCrc v).crc = v := rfl
@[simp] theorem setCrc_status (v : Word) : (s.setCrc v).status = s.status := rfl
@[simp] theorem setCrc_ibuf (v : Word) : (s.setCrc v).ibuf = s.ibuf := rfl
@[simp] theorem setCrc_obuf (v : Word) : (s.setCrc v).obuf = s.obuf := rfl
@[simp] theorem setCrc_response (v : Word) : (s.setCrc v).response = s.response := rfl
@[simp] theorem setCrc_inputs (v : Word) : (s.setCrc v).inputs = s.inputs := rfl

@[simp] theorem setIbuf_crc (bytes : List Byte) : (s.setIbuf bytes).crc = s.crc := rfl
@[simp] theorem setIbuf_status (bytes : List Byte) : (s.setIbuf bytes).status = s.status := rfl
@[simp] theorem setIbuf_ibuf (bytes : List Byte) : (s.setIbuf bytes).ibuf = bytes := rfl
@[simp] theorem setIbuf_obuf (bytes : List Byte) : (s.setIbuf bytes).obuf = s.obuf := rfl
@[simp] theorem setIbuf_response (bytes : List Byte) : (s.setIbuf bytes).response = s.response := rfl
@[simp] theorem setIbuf_inputs (bytes : List Byte) : (s.setIbuf bytes).inputs = s.inputs := rfl

@[simp] theorem setObuf_crc (bytes : List Byte) : (s.setObuf bytes).crc = s.crc := rfl
@[simp] theorem setObuf_status (bytes : List Byte) : (s.setObuf bytes).status = s.status := rfl
@[simp] theorem setObuf_ibuf (bytes : List Byte) : (s.setObuf bytes).ibuf = s.ibuf := rfl
@[simp] theorem setObuf_obuf (bytes : List Byte) : (s.setObuf bytes).obuf = bytes := rfl
@[simp] theorem setObuf_response (bytes : List Byte) : (s.setObuf bytes).response = s.response := rfl
@[simp] theorem setObuf_inputs (bytes : List Byte) : (s.setObuf bytes).inputs = s.inputs := rfl

@[simp] theorem setStatus_crc (v : Word) : (s.setStatus v).crc = s.crc := rfl
@[simp] theorem setStatus_status (v : Word) : (s.setStatus v).status = v := rfl
@[simp] theorem setStatus_ibuf (v : Word) : (s.setStatus v).ibuf = s.ibuf := rfl
@[simp] theorem setStatus_obuf (v : Word) : (s.setStatus v).obuf = s.obuf := rfl
@[simp] theorem setStatus_response (v : Word) : (s.setStatus v).response = s.response := rfl
@[simp] theorem setStatus_inputs (v : Word) : (s.setStatus v).inputs = s.inputs := rfl

@[simp] theorem reply_crc (r : ResponseWord) : (reply r s).crc = s.crc := rfl
@[simp] theorem reply_status (r : ResponseWord) : (reply r s).status = s.status := rfl
@[simp] theorem reply_ibuf (r : ResponseWord) : (reply r s).ibuf = s.ibuf := rfl
@[simp] theorem reply_obuf (r : ResponseWord) : (reply r s).obuf = s.obuf := rfl
@[simp] theorem reply_response (r : ResponseWord) : (reply r s).response = some r := rfl
@[simp] theorem reply_inputs (r : ResponseWord) : (reply r s).inputs = s.inputs.tail := rfl

@[simp] theorem succeed_crc (v : Word) : (succeed v s).crc = s.crc := rfl
@[simp] theorem succeed_status (v : Word) : (succeed v s).status = s.status := rfl
@[simp] theorem succeed_ibuf (v : Word) : (succeed v s).ibuf = s.ibuf := rfl
@[simp] theorem succeed_obuf (v : Word) : (succeed v s).obuf = s.obuf := rfl
@[simp] theorem succeed_response (v : Word) : (succeed v s).response = some (resp v 0) := rfl
@[simp] theorem succeed_inputs (v : Word) : (succeed v s).inputs = s.inputs.tail := rfl

@[simp] theorem raise_crc (e : ErrorCode) : (raise e s).crc = s.crc := rfl
@[simp] theorem raise_status (e : ErrorCode) : (raise e s).status = latchError e s.status := rfl
@[simp] theorem raise_ibuf (e : ErrorCode) : (raise e s).ibuf = s.ibuf := rfl
@[simp] theorem raise_obuf (e : ErrorCode) : (raise e s).obuf = s.obuf := rfl
@[simp] theorem raise_response (e : ErrorCode) : (raise e s).response = some (resp 0 e.code) := rfl
@[simp] theorem raise_inputs (e : ErrorCode) : (raise e s).inputs = s.inputs.tail := rfl

@[simp] theorem raiseEmptyingObuf_crc (e : ErrorCode) : (raiseEmptyingObuf e s).crc = s.crc := rfl
@[simp] theorem raiseEmptyingObuf_status (e : ErrorCode) : (raiseEmptyingObuf e s).status = latchError e s.status := rfl
@[simp] theorem raiseEmptyingObuf_ibuf (e : ErrorCode) : (raiseEmptyingObuf e s).ibuf = s.ibuf := rfl
@[simp] theorem raiseEmptyingObuf_obuf (e : ErrorCode) : (raiseEmptyingObuf e s).obuf = [] := rfl
@[simp] theorem raiseEmptyingObuf_response (e : ErrorCode) : (raiseEmptyingObuf e s).response = some (resp 0 e.code) := rfl
@[simp] theorem raiseEmptyingObuf_inputs (e : ErrorCode) : (raiseEmptyingObuf e s).inputs = s.inputs.tail := rfl

@[simp] theorem resetBlock_crc : (resetBlock s).crc = 0xFFFF := rfl
@[simp] theorem resetBlock_status : (resetBlock s).status = 0x0000 := rfl
@[simp] theorem resetBlock_ibuf : (resetBlock s).ibuf = [] := rfl
@[simp] theorem resetBlock_obuf : (resetBlock s).obuf = [] := rfl
@[simp] theorem resetBlock_response : (resetBlock s).response = s.response := rfl
@[simp] theorem resetBlock_inputs : (resetBlock s).inputs = s.inputs := rfl

@[simp] theorem hardwareReset_crc : (hardwareReset s).crc = 0xFFFF := rfl
@[simp] theorem hardwareReset_status : (hardwareReset s).status = 0x0000 := rfl
@[simp] theorem hardwareReset_ibuf : (hardwareReset s).ibuf = [] := rfl
@[simp] theorem hardwareReset_obuf : (hardwareReset s).obuf = [] := rfl
@[simp] theorem hardwareReset_response : (hardwareReset s).response = none := rfl
@[simp] theorem hardwareReset_inputs : (hardwareReset s).inputs = s.inputs.tail := rfl

@[simp] theorem present_crc (input : HostInput) : (present input s).crc = s.crc := rfl
@[simp] theorem present_status (input : HostInput) : (present input s).status = s.status := rfl
@[simp] theorem present_ibuf (input : HostInput) : (present input s).ibuf = s.ibuf := rfl
@[simp] theorem present_obuf (input : HostInput) : (present input s).obuf = s.obuf := rfl
@[simp] theorem present_response (input : HostInput) : (present input s).response = s.response := rfl
@[simp] theorem present_inputs (input : HostInput) : (present input s).inputs = input :: s.inputs := rfl

@[simp] theorem reset_crc : State.reset.crc = 0xFFFF := rfl
@[simp] theorem reset_status : State.reset.status = 0x0000 := rfl
@[simp] theorem reset_ibuf : State.reset.ibuf = [] := rfl
@[simp] theorem reset_obuf : State.reset.obuf = [] := rfl
@[simp] theorem reset_response : State.reset.response = none := rfl
@[simp] theorem reset_inputs : State.reset.inputs = [] := rfl

end Sys2Proof.Machine
end

