-- ==== Sys2Proof/Laws/Ops.lean ====
section
/-!
SUPPORT. For each shared operation, what it can do, said once: response fields, operand forms, frames,
and the operations that take a configuration.
-/

namespace Sys2Proof.Machine

/-! ## Response words -/

theorem resp_toNat (v : Word) (e : Byte) : (resp v e).toNat = e.toNat + v.toNat * 2 ^ 16 := by
  rw [resp, BitVec.toNat_ofNat]
  exact Nat.mod_eq_of_lt (by omega)

@[simp] theorem respErr_resp (v : Word) (e : Byte) : respErr (resp v e) = e := by
  apply BitVec.eq_of_toNat_eq
  rw [respErr, BitVec.extractLsb'_toNat, resp_toNat, Nat.shiftRight_eq_div_pow]
  omega

@[simp] theorem respVal_resp (v : Word) (e : Byte) : respVal (resp v e) = v := by
  apply BitVec.eq_of_toNat_eq
  rw [respVal, BitVec.extractLsb'_toNat, resp_toNat, Nat.shiftRight_eq_div_pow]
  omega

@[simp] theorem respZero_resp (v : Word) (e : Byte) : respZero (resp v e) = 0 := by
  apply BitVec.eq_of_toNat_eq
  rw [respZero, BitVec.extractLsb'_toNat, resp_toNat, Nat.shiftRight_eq_div_pow]
  change _ = 0
  omega

/-! ## Flags -/

theorem errorCode_code_ne_zero (e : ErrorCode) : e.code ≠ 0 := by cases e <;> decide

theorem errorCode_code_le (e : ErrorCode) : e.code.toNat ≤ 5 := by cases e <;> decide

/-! ## Operand forms -/

@[simp] theorem bigEndian_length (v : Word) : (bigEndian v).length = 2 := rfl

@[simp] theorem lowByteFirst_length (v : Word) : (lowByteFirst v).length = 2 := rfl

theorem lengthWord_toNat {bytes : List Byte} (h : bytes.length < 2 ^ 16) :
    (lengthWord bytes).toNat = bytes.length := by
  rw [lengthWord, BitVec.toNat_ofNat, Nat.mod_eq_of_lt h]

theorem startAddress_eq_none_iff (base addr : Word) :
    startAddress base addr = none ↔ 0xFFFF < addr.toNat + base.toNat := by
  simp [startAddress]

theorem startAddress_eq_some {base addr a : Word} (h : startAddress base addr = some a) :
    a.toNat = addr.toNat + base.toNat := by
  unfold startAddress at h
  split at h
  · cases h
  · cases h
    rw [BitVec.toNat_ofNat]
    exact Nat.mod_eq_of_lt (by omega)

/-! ## The checksum -/

@[simp] theorem crcFold_nil (c : Word) : crcFold c [] = c := rfl

@[simp] theorem crcFold_cons (c : Word) (b : Byte) (t : List Byte) :
    crcFold c (b :: t) = crcFold (crcStep c b) t := rfl

/-! ## Frames -/

@[simp] theorem sealFrame_length (body : List Byte) : (sealFrame body).length = body.length + 2 := by
  simp [sealFrame]

@[simp] theorem requestHeader_length (slave func : Byte) (address count : Word) :
    (requestHeader slave func address count).length = 6 := rfl

/-- `writeRequestBody` answers exactly when the length fits a byte and the sum fits its field, and then
with the seven header bytes and the payload. -/
theorem writeRequestBody_eq_some_iff (cfg : Cfg) (slave func : Byte) (addr count : Word)
    (payload body : List Byte) :
    writeRequestBody cfg slave func addr count payload = some body ↔
      payload.length ≤ 255 ∧ ∃ a, startAddress cfg.writeBase addr = some a ∧
        body = requestHeader slave func a count ++ [BitVec.ofNat 8 payload.length] ++ payload := by
  unfold writeRequestBody
  split
  · simp; omega
  · cases startAddress cfg.writeBase addr <;> simp [eq_comm]; omega

theorem writeRequestBody_length {cfg : Cfg} {slave func : Byte} {addr count : Word}
    {payload body : List Byte} (h : writeRequestBody cfg slave func addr count payload = some body) :
    body.length = 7 + payload.length ∧ payload.length ≤ 255 := by
  obtain ⟨hl, a, -, rfl⟩ := (writeRequestBody_eq_some_iff ..).mp h
  exact ⟨by simp; omega, hl⟩

theorem readRequestBody_eq_some_iff (cfg : Cfg) (slave func : Byte) (addr count : Word)
    (body : List Byte) :
    readRequestBody cfg slave func addr count = some body ↔
      ∃ a, startAddress cfg.readBase addr = some a ∧ body = requestHeader slave func a count := by
  unfold readRequestBody
  cases startAddress cfg.readBase addr <;> simp [eq_comm]

theorem readRequestBody_length {cfg : Cfg} {slave func : Byte} {addr count : Word}
    {body : List Byte} (h : readRequestBody cfg slave func addr count = some body) :
    body.length = 6 := by
  obtain ⟨a, -, rfl⟩ := (readRequestBody_eq_some_iff ..).mp h
  rfl

theorem decodeReadResponse_eq_some_iff (bytes : List Byte) (count : Word) (payload : List Byte) :
    decodeReadResponse bytes count = some payload ↔
      readResponseLength count ≤ bytes.length ∧ payload = (bytes.drop 3).take (2 * count.toNat) := by
  unfold decodeReadResponse responsePayload
  split <;> simp [eq_comm] <;> omega

theorem decodeReadResponse_length {bytes payload : List Byte} {count : Word}
    (h : decodeReadResponse bytes count = some payload) :
    payload.length = 2 * count.toNat ∧ payload.length + 5 ≤ bytes.length := by
  obtain ⟨hl, rfl⟩ := (decodeReadResponse_eq_some_iff ..).mp h
  simp only [readResponseLength] at hl
  simp only [List.length_take, List.length_drop]
  omega

/-! ## Operations that take a configuration -/

theorem pushByte_of_full {cfg : Cfg} {s : State} (data : Byte) (h : s.ibuf.length = cfg.ibufCap) :
    pushByte cfg data s = raise .overflow s := if_pos h

theorem pushByte_of_room {cfg : Cfg} {s : State} (data : Byte) (h : s.ibuf.length ≠ cfg.ibufCap) :
    pushByte cfg data s = succeed (lengthWord (s.ibuf ++ [data])) (s.setIbuf (s.ibuf ++ [data])) :=
  if_neg h

theorem readCommand_of_defined {cfg : Cfg} {reg : Byte} {r : BlockRegister}
    (h : BlockRegister.ofNumber? reg = some r) (s : State) :
    readCommand cfg reg s = succeed (readRegister cfg r s) s := by
  simp only [readCommand, h]

theorem readCommand_of_reserved {cfg : Cfg} {reg : Byte}
    (h : BlockRegister.ofNumber? reg = none) (s : State) :
    readCommand cfg reg s = raise .illegal s := by
  simp only [readCommand, h]

@[simp] theorem emitFrame_none (s : State) : emitFrame none s = raiseEmptyingObuf .range s := rfl

@[simp] theorem emitFrame_some (body : List Byte) (s : State) :
    emitFrame (some body) s =
      succeed (lengthWord (sealFrame body)) ((s.setObuf (sealFrame body)).setCrc (crc16 body)) := rfl

/-! ## The port -/

theorem execWord_of_decode {cw : CommandWord} {i : Instr} (h : decode cw = .ok i) (s : State) :
    execWord cw s = exec i s := by
  simp only [execWord, h]

theorem execWord_of_illegal {cw : CommandWord} {e : DecodeError} (h : decode cw = .error e)
    (s : State) : execWord cw s = .next (raise .illegal s) := by
  simp only [execWord, h]

end Sys2Proof.Machine
end

