-- ==== Sys2Proof/Laws/Memory.lean ====
section
/-!
SUPPORT. Every operation that writes a buffer keeps both buffers within their capacities, and the reset
state has them so (spec/10_state.md R35).
-/

namespace Sys2Proof.Machine

variable {cfg : Cfg} {s : State}

theorem reset_memory_wf : Memory.wf State.reset := by decide

theorem resetBlock_fits : Memory.fits cfg (resetBlock s) := ⟨Nat.zero_le _, Nat.zero_le _⟩

theorem hardwareReset_fits : Memory.fits cfg (hardwareReset s) := ⟨Nat.zero_le _, Nat.zero_le _⟩

theorem reply_fits (r : ResponseWord) (h : Memory.fits cfg s) : Memory.fits cfg (reply r s) := h

theorem succeed_fits (v : Word) (h : Memory.fits cfg s) : Memory.fits cfg (succeed v s) := h

theorem raise_fits (e : ErrorCode) (h : Memory.fits cfg s) : Memory.fits cfg (raise e s) := h

theorem setCrc_fits (v : Word) (h : Memory.fits cfg s) : Memory.fits cfg (s.setCrc v) := h

theorem present_fits (input : HostInput) (h : Memory.fits cfg s) : Memory.fits cfg (present input s) := h

theorem clearIbuf_fits (h : Memory.fits cfg s) : Memory.fits cfg (s.setIbuf []) :=
  ⟨Nat.zero_le _, h.2⟩

theorem setObuf_fits {bytes : List Byte} (hb : bytes.length ≤ cfg.obufCap) (h : Memory.fits cfg s) :
    Memory.fits cfg (s.setObuf bytes) := ⟨h.1, hb⟩

theorem raiseEmptyingObuf_fits (e : ErrorCode) (h : Memory.fits cfg s) :
    Memory.fits cfg (raiseEmptyingObuf e s) :=
  raise_fits e (setObuf_fits (Nat.zero_le _) h)

theorem readCommand_fits (reg : Byte) (h : Memory.fits cfg s) :
    Memory.fits cfg (readCommand cfg reg s) := by
  unfold readCommand
  split
  · exact h
  · exact h

theorem pushByte_fits (data : Byte) (h : Memory.fits cfg s) :
    Memory.fits cfg (pushByte cfg data s) := by
  by_cases hf : s.ibuf.length = cfg.ibufCap
  · rw [pushByte_of_full data hf]
    exact raise_fits .overflow h
  · rw [pushByte_of_room data hf]
    refine ⟨?_, h.2⟩
    have := h.1
    simp only [succeed_ibuf, setIbuf_ibuf, List.length_append, List.length_singleton]
    omega

theorem dropFirst_fits {b : Byte} {rest : List Byte} (ho : s.obuf = b :: rest)
    (h : Memory.fits cfg s) : Memory.fits cfg (s.setObuf rest) := by
  refine setObuf_fits ?_ h
  have := h.2
  simp only [ho, List.length_cons] at this
  omega

theorem emitFrame_fits {body : Option (List Byte)} (hb : ∀ b ∈ body, b.length + 2 ≤ cfg.obufCap)
    (h : Memory.fits cfg s) : Memory.fits cfg (emitFrame body s) := by
  cases body with
  | none => exact raiseEmptyingObuf_fits .range h
  | some b => exact ⟨h.1, by simpa using hb b rfl⟩

theorem encodeWrite_fits (hcap : 264 ≤ cfg.obufCap) (slave func : Byte) (addr count : Word)
    (h : Memory.fits cfg s) : Memory.fits cfg (encodeWrite cfg slave func addr count s) := by
  refine emitFrame_fits (fun b hb => ?_) h
  obtain ⟨h1, h2⟩ := writeRequestBody_length hb
  omega

theorem encodeRead_fits (hcap : 264 ≤ cfg.obufCap) (slave func : Byte) (addr count : Word)
    (h : Memory.fits cfg s) : Memory.fits cfg (encodeRead cfg slave func addr count s) := by
  refine emitFrame_fits (fun b hb => ?_) h
  have := readRequestBody_length hb
  omega

theorem setPayload_fits {payload : List Byte} {count : Word}
    (hcap : cfg.ibufCap - 5 ≤ cfg.obufCap) (hp : decodeReadResponse s.ibuf count = some payload)
    (h : Memory.fits cfg s) : Memory.fits cfg (s.setObuf payload) := by
  refine setObuf_fits ?_ h
  have h1 := (decodeReadResponse_length hp).2
  have h2 := h.1
  omega

end Sys2Proof.Machine
end

