-- ==== Sys2Proof/Laws/PerInstr.lean ====
section
/-!
SUPPORT. Statements for every command, one lemma per constructor. Family RowMatch: the command word of a
command has the fixed bits its row of the opcode table demands, `cw & mask = match`
(spec/30_encoding.md R72, R76).
-/

namespace Sys2Proof.Laws.RowMatch

/-- The encoded word agrees with the match value under the mask of the command's format. -/
def Statement (i : Instr) : Prop :=
  encode i &&& (opcodeOf i).format.mask = (opcodeOf i).matchWord

theorem rst : Statement .rst := by unfold Statement; decide

theorem rd (reg : Byte) : Statement (.rd reg) := by
  unfold Statement; rw [mask_test_iff]; simp [encode, opcodeOf, Opcode.code, Opcode.format, Format.usesA]

theorem clri : Statement .clri := by unfold Statement; decide

theorem push (data : Byte) : Statement (.push data) := by
  unfold Statement; rw [mask_test_iff]; simp [encode, opcodeOf, Opcode.code, Opcode.format, Format.usesA]

theorem clro : Statement .clro := by unfold Statement; decide

theorem pop : Statement .pop := by unfold Statement; decide

theorem crci : Statement .crci := by unfold Statement; decide

theorem crcu (data : Byte) : Statement (.crcu data) := by
  unfold Statement; rw [mask_test_iff]; simp [encode, opcodeOf, Opcode.code, Opcode.format, Format.usesA]

theorem crcb : Statement .crcb := by unfold Statement; decide

theorem encw (slave func : Byte) (addr count : Word) : Statement (.encw slave func addr count) := by
  unfold Statement; rw [mask_test_iff]
  simp [encode, opcodeOf, Opcode.code, Opcode.format, Format.usesA, Format.usesFuncAddr,
    Format.usesCount]

theorem encr (slave func : Byte) (addr count : Word) : Statement (.encr slave func addr count) := by
  unfold Statement; rw [mask_test_iff]
  simp [encode, opcodeOf, Opcode.code, Opcode.format, Format.usesA, Format.usesFuncAddr,
    Format.usesCount]

theorem decr (count : Word) : Statement (.decr count) := by
  unfold Statement; rw [mask_test_iff]; simp [encode, opcodeOf, Opcode.code, Opcode.format, Format.usesCount]

end Sys2Proof.Laws.RowMatch
end

