-- ==== Sys2Proof/Tests/Slice0.lean ====
section
/-!
SUPPORT. Tests. Expected results are the vectors of spec/95_test_vectors.md (V<n>, P<n>) or words written
out from the encoding tables of spec/30_encoding.md; then one witness per hypothesis of the statements.
-/

namespace Sys2Proof.Tests

open Sys2Proof Sys2Proof.Machine Sys2Proof.Safety

/-- A state with the block's four items given and nothing presented. -/
def block (crc status : Word) (ibuf obuf : List Byte) : State :=
  { State.reset with crc := crc, status := status, ibuf := ibuf, obuf := obuf }

/-- What one step leaves after a word is presented: CRC, STATUS, IBUF, OBUF and the response. -/
def after (s : State) (cw : CommandWord) :
    Option (Word × Word × List Byte × List Byte × Option ResponseWord) :=
  match step (present (.command cw) s) with
  | .next t => some (t.crc, t.status, t.ibuf, t.obuf, t.response)
  | .fault _ => none
  | .refused _ => none

/-- Bytes counting up from 0, as V46, V47, V58 and V59 have them. -/
def counting (n : Nat) : List Byte := (List.range n).map (fun k => BitVec.ofNat 8 k)

@[simp] theorem counting_length (n : Nat) : (counting n).length = n := by simp [counting]

/-! ## Well-formedness (R79) -/

theorem test_wf_rd_0D : WellFormed (.rd 0x0D) = true := by decide
theorem test_wf_refuses_rd_05 : WellFormed (.rd 0x05) = false := by decide
theorem test_wf_refuses_rd_07 : WellFormed (.rd 0x07) = false := by decide
theorem test_wf_refuses_rd_0E : WellFormed (.rd 0x0E) = false := by decide

/-! ## Decoding: one word per constructor, written out from R71, R72 and R76 -/

theorem test_decode_rst : decode 0x0000000000000001 = .ok .rst := by decide
theorem test_decode_rd : decode 0x0000000000000D02 = .ok (.rd 0x0D) := by decide
theorem test_decode_clri : decode 0x0000000000000010 = .ok .clri := by decide
theorem test_decode_push : decode 0x000000000000C511 = .ok (.push 0xC5) := by decide
theorem test_decode_clro : decode 0x0000000000000012 = .ok .clro := by decide
theorem test_decode_pop : decode 0x0000000000000013 = .ok .pop := by decide
theorem test_decode_crci : decode 0x0000000000000020 = .ok .crci := by decide
theorem test_decode_crcu : decode 0x000000000000FF21 = .ok (.crcu 0xFF) := by decide
theorem test_decode_crcb : decode 0x0000000000000022 = .ok .crcb := by decide
/-- V43. -/
theorem test_decode_encw : decode 0x000001FC17100930 = .ok (.encw 0x09 0x10 0xFC17 1) := by decide
/-- V67: every field at a telling value. -/
theorem test_decode_encr : decode 0x0001020002FFFF31 = .ok (.encr 0xFF 0xFF 2 0x0102) := by decide
/-- V58. -/
theorem test_decode_decr : decode 0x0000810000000032 = .ok (.decr 129) := by decide

/-- V100 to V106: reserved opcodes. -/
theorem test_decode_reserved_opcodes :
    ([0x0, 0xFF, 0x03, 0x14, 0x23, 0x33, 0xFFFFFFFFFFFFFFFF] : List CommandWord).all
      (fun cw => decide (decode cw = .error .reservedOpcode)) = true := by decide
/-- V107 to V113: fields that must be zero. -/
theorem test_decode_reserved_fields :
    ([0x110, 0x0100000000000010, 0x10011, 0x1000021, 0x10000000013, 0x132, 0x0100000000000030] :
      List CommandWord).all (fun cw => decide (decode cw = .error .reservedField)) = true := by decide
/-- V114 to V116: reserved registers. -/
theorem test_decode_reserved_registers :
    ([0x702, 0xE02, 0xFF02] : List CommandWord).all
      (fun cw => decide (decode cw = .error .reservedRegister)) = true := by decide

theorem test_table_word : decodeTableWord 64 0x000001F82F030931 = some (.encr 0x09 0x03 0xF82F 1) := by
  decide
theorem test_table_word_refused : decodeTableWord 64 0x33 = none := by decide
theorem test_fetched_word_runs :
    step (State.reset.withFetchWord 64 0x121) =
      exec (.crcu 0x01) (State.reset.withFetchWord 64 0x121) := rfl

/-! ## The checksum: V2, V4, V5, V6, V8, V14 -/

theorem test_crc_empty : crc16 [] = 0xFFFF := by decide
theorem test_crc_check_value :
    crc16 [0x31, 0x32, 0x33, 0x34, 0x35, 0x36, 0x37, 0x38, 0x39] = 0x4B37 := by decide +kernel
theorem test_crc_FF : crc16 [0xFF] = 0x00FF := by decide
theorem test_crc_00_00 : crc16 [0x00, 0x00] = 0xB001 := by decide +kernel
theorem test_crc_write_response :
    writeResponse 0x09 0x10 0x03E8 3 = [0x09, 0x10, 0x03, 0xE8, 0x00, 0x03, 0x01, 0x30] := by
  decide +kernel
theorem test_crc_step : crcStep 0x1234 0x56 = 0xE993 := by decide
theorem test_crc_step_by_table : crcStepByTable 0x1234 0x56 = 0xE993 := by decide
/-- V50's response is the well-formed one for its payload. -/
theorem test_read_response :
    readResponse 0x09 0x03 [0x31, 0x00] = [0x09, 0x03, 0x02, 0x31, 0x00, 0x4C, 0x15] := by
  decide +kernel

/-! ## One step per test -/

/-- V92. -/
theorem test_rst : after (block 0x6685 0x001B [9, 3, 2, 0x31, 0, 0x4C] [9, 3, 0xFF]) 0x01 =
    some (0xFFFF, 0, [], [], some 0) := by decide
/-- V91. -/
theorem test_rd_crcw : after (block 0xCDC5 0 [] []) 0x0102 =
    some (0xCDC5, 0, [], [], some 0xC5CD0000) := by decide
/-- V93. -/
theorem test_rd_reserved : after (block 0xCDC5 0x0A [1] [2]) 0x0502 =
    some (0xCDC5, 0x000B, [1], [2], some 0x00000001) := by decide
/-- V73. -/
theorem test_clri : after (block 7 3 [1, 2] [9]) 0x10 = some (7, 3, [], [9], some 0) := by
  decide
/-- V71: the 264th byte. -/
theorem test_push_last_room :
    (after (block 7 0 (counting 263) []) 0x0711).map (fun r => (r.2.2.1.length, r.2.2.2.2)) =
      some (264, some 0x01080000) := by decide +kernel
/-- V72: the 265th byte. -/
theorem test_push_full :
    (after (block 7 0 (counting 264) []) 0x5511).map (fun r => (r.2.1, r.2.2.1.length, r.2.2.2.2)) =
      some (0x0004, 264, some 0x00000003) := by decide +kernel
/-- V77. -/
theorem test_clro : after (block 7 8 [1] [9, 3, 7]) 0x12 = some (7, 8, [1], [], some 0) := by
  decide
/-- V74. -/
theorem test_pop : after (block 7 0 [] [9, 3]) 0x13 = some (7, 0, [], [3], some 0x00090000) := by
  decide
/-- V76. -/
theorem test_pop_empty : after (block 7 0 [] []) 0x13 = some (7, 8, [], [], some 0x00000004) := by
  decide
/-- R116's example. -/
theorem test_crci : after (block 0x1234 0 [1] [2]) 0x20 =
    some (0xFFFF, 0, [1], [2], some 0xFFFF0000) := by decide
/-- P6 step 5: CRCU continues from a frame's checksum. -/
theorem test_crcu : after (block 0xCF85 0 [] [9]) 0x21 = some (0xA30E, 0, [], [9], some 0xA30E0000) := by
  decide
/-- V19. -/
theorem test_crcb :
    (after (block 5 0 [0x09, 0x10, 0x03, 0xE8, 0x00, 0x01, 0x80, 0xB9] []) 0x22).map
      (fun r => (r.1, r.2.2.2.2)) = some (0x3600, some 0x36000000) := by decide +kernel
/-- V42. -/
theorem test_encw : after (block 0xFFFF 0 [0x12, 0x34] [1]) 0x0000010003100930 =
    some (0xFCE8, 0, [0x12, 0x34],
      [0x09, 0x10, 0x03, 0xEB, 0x00, 0x01, 0x02, 0x12, 0x34, 0xE8, 0xFC], some 0x000B0000) := by
  decide +kernel
/-- V44. -/
theorem test_encw_range : after (block 0xFFFF 0 [0xAB, 0xCD] [1]) 0x000001FC18100930 =
    some (0xFFFF, 0x0010, [0xAB, 0xCD], [], some 0x00000005) := by decide
/-- V67. -/
theorem test_encr : after (block 0xFFFF 0 [] []) 0x0001020002FFFF31 =
    some (0x1C21, 0, [], [0xFF, 0xFF, 0x07, 0xD2, 0x01, 0x02, 0x21, 0x1C], some 0x00080000) := by
  decide +kernel
/-- V66: no wrap-around. -/
theorem test_encr_range : after (block 0xFFFF 0 [] [1]) 0x000001FFFF030931 =
    some (0xFFFF, 0x0010, [], [], some 0x00000005) := by decide
/-- V57: COUNT decides, byte 2 is not read. -/
theorem test_decr : after (block 0xFFFF 0 [9, 3, 4, 0xDE, 0xAD, 0xBE, 0xEF, 0xE8, 0x16] [1]) 0x0000010000000032 =
    some (0xFFFF, 0, [9, 3, 4, 0xDE, 0xAD, 0xBE, 0xEF, 0xE8, 0x16], [0xDE, 0xAD], some 0x00020000) := by
  decide
/-- V59: one byte short. -/
theorem test_decr_short :
    (after (block 0xFFFF 0 (counting 262) [1]) 0x0000810000000032).map
      (fun r => (r.2.1, r.2.2.2.1, r.2.2.2.2)) = some (0x0002, [], some 0x00000002) := by
  decide +kernel
/-- V46: the longest payload fills OBUF. -/
theorem test_encw_longest :
    (after (block 0xFFFF 0 (counting 255) []) 0x00007F0000100930).map
      (fun r => (r.2.2.2.1.length, r.2.2.2.1.take 8, r.2.2.2.2)) =
      some (264, [0x09, 0x10, 0x03, 0xE8, 0x00, 0x7F, 0xFF, 0x00], some 0x01080000) := by
  decide +kernel
/-- P5 step 10: CLRI with RSV = 1 is illegal and clears nothing. -/
theorem test_illegal_word : after (block 0xFFFF 0x000B [9] [3]) 0x0100000000000010 =
    some (0xFFFF, 0x000B, [9], [3], some 0x00000001) := by decide
theorem test_idle : step (block 1 2 [3] [4]) = .next (block 1 2 [3] [4]) := rfl

/-! ## The assembler (R91, R92) -/

/-- The examples of R91, with the words of V37 and P5. -/
theorem test_assemble :
    (assembleText Config.mfc "PUSH 0x01 ; data\nRD CRC\n  ENCW 0x09, 0x10, 0, 3\nDECR 1\n\nPOP").map
      (fun program => program.map encode) =
      some [0x111, 0x02, 0x0000030000100930, 0x0000010000000032, 0x13] := by decide
theorem test_assemble_pseudo :
    assembleText Config.mfc "LOAD 1, 0xFF\nREADREGS 0, 1\nDRAIN 2\nCHECKSUMB" =
      some [.clri, .push 1, .push 0xFF, .encr 0x09 0x03 0 1, .pop, .pop, .clri, .crcb] := by
  decide
theorem test_assemble_refuses : assembleText Config.mfc "PUSH 256" = none := by decide

/-! ## Witnesses: states and operands that meet the hypotheses of the statements -/

/-- A full and busy state that meets the invariant: both buffers at their capacities, every fault bit
set, an error as the last response. -/
def fullState : State :=
  { crc := 0x1234, status := 0x001F, ibuf := counting 264, obuf := counting 264,
    response := some (resp 0 5), inputs := [.command 0x13, .hardwareReset] }

theorem witness_invariant : Inv fullState := by
  refine ⟨⟨by simp [fullState, Config.mfc], by simp [fullState, Config.mfc]⟩, by decide, fun r h => ?_⟩
  have h : resp 0 5 = r := Option.some.inj h
  exact h ▸ (by decide : LegalResponse (resp 0 5))

theorem witness_wellFormed_boundaries :
    WellFormed (.rd 0x04) = true ∧ WellFormed (.rd 0x08) = true ∧ WellFormed (.decr 0xFFFF) = true := by
  decide
theorem witness_decodes : decode 0x0000000000000402 = .ok (.rd 0x04) := by decide
theorem witness_rsv_field :
    rsvField 0x0100000000000001 ≠ 0 ∧ decode 0x0100000000000001 = .error .reservedField := by decide
theorem witness_row_matched :
    ((0x00FFFFF82F030931 : CommandWord) &&& 0xFF000000000000FF = 0x31) ∧
      ∀ r ∈ specRows, (0x14 : CommandWord) &&& r.2 ≠ r.1 := by
  refine ⟨by decide, fun r hr => ?_⟩
  have h : (specRows.all fun r => (0x14 : CommandWord) &&& r.2 != r.1) = true := by decide
  simpa using List.all_eq_true.mp h r hr
theorem witness_reserved_opcode :
    (present (.command 0x14) State.reset).inputs = [.command 0x14] ∧
      (0x14 : CommandWord).toNat % 2 ^ 8 ∉
        [0x01, 0x02, 0x10, 0x11, 0x12, 0x13, 0x20, 0x21, 0x22, 0x30, 0x31, 0x32] := by decide
theorem witness_reserved_field :
    ((0x31, 0xFF000000000000FF) ∈ specRows) ∧ (0x0100000000000031 : CommandWord).toNat % 2 ^ 8 = 0x31 ∧
      (0x0100000000000031 : CommandWord) &&& 0xFF000000000000FF ≠ 0x31 := by decide
theorem witness_reserved_registers :
    (0x05 : Byte).toNat ∉ [0, 1, 2, 3, 4, 8, 9, 10, 11, 12, 13] ∧
      (0x07 : Byte).toNat ∉ [0, 1, 2, 3, 4, 8, 9, 10, 11, 12, 13] ∧
      (0x0E : Byte).toNat ∉ [0, 1, 2, 3, 4, 8, 9, 10, 11, 12, 13] ∧
      (present (.command (BitVec.ofNat 64 (0x02 + (0x0E : Byte).toNat * 2 ^ 8))) State.reset).inputs =
        [.command 0xE02] := by decide
theorem witness_presented :
    fullState.inputs = .command 0x13 :: [.hardwareReset] ∧ decode 0x13 = .ok .pop ∧
      decode 0x13 ≠ .ok .rst ∧ decode 0x13 ≠ .ok (.rd 0x02) := by decide
theorem witness_illegal :
    (present (.command 0x3301) fullState).inputs = .command 0x3301 :: fullState.inputs ∧
      decode 0x3301 = .error .reservedField := by decide
theorem witness_reset_presented :
    (present .hardwareReset fullState).inputs = .hardwareReset :: fullState.inputs ∧
      State.reset.inputs = [] := by decide
theorem witness_reset_states :
    (∃ s t : State, ∃ rest, s.inputs = .hardwareReset :: rest ∧ step s = .next t) ∧
      ∃ s t : State, exec .rst s = .next t :=
  ⟨⟨present .hardwareReset fullState, _, _, rfl, rfl⟩, fullState, _, rfl⟩
theorem witness_failing_encr :
    after (block 7 1 [] [1]) 0x000001F830030931 = some (7, 0x0011, [], [], some (resp 0 5)) := by
  decide
theorem witness_failing_decr :
    after (block 7 1 [1, 2, 3, 4] [1]) 0x32 = some (7, 0x0003, [1, 2, 3, 4], [], some (resp 0 2)) := by
  decide
theorem witness_failing_pop :
    after (block 7 1 [] []) 0x13 = some (7, 0x0009, [], [], some (resp 0 4)) := by decide
theorem witness_failing_word :
    after (block 7 2 [] [1]) 0 = some (7, 0x0003, [], [1], some (resp 0 1)) := by decide
theorem witness_rsv_encw :
    (2 ^ 56 ≤ (0x0100000000000030 : CommandWord).toNat) ∧
      (0x0100000000000030 : CommandWord).toNat % 2 ^ 8 = 0x30 ∧
      decode 0x0100000000000030 = .error .reservedField := by decide
theorem witness_some_step (i : Instr) (h : i = .crcb) : ∃ t, exec i fullState = .next t := by
  subst h; exact ⟨_, rfl⟩
theorem witness_rst_with_other_bits :
    (0x0101 : CommandWord).toNat % 2 ^ 8 = 0x01 ∧ (0x0101 : CommandWord).toNat ≠ 1 := by decide
theorem witness_rd_registers (s : State) :
    ((0x04 : Byte), BitVec.ofNat 16 s.obuf.length) ∈ [((0x00 : Byte), s.crc),
        (0x01, BitVec.ofNat 16 (s.crc.toNat % 2 ^ 8 * 2 ^ 8 + s.crc.toNat / 2 ^ 8)),
        (0x02, s.status), (0x03, BitVec.ofNat 16 s.ibuf.length),
        (0x04, BitVec.ofNat 16 s.obuf.length), (0x08, 0x0009), (0x09, 0x0010), (0x0A, 0x0003),
        (0x0B, 0x03E8), (0x0C, 0x07D0), (0x0D, 0x0008)] := by simp
theorem witness_source_crc : (block 0xCDC5 0 [] []).crc = 0xCDC5 := rfl
theorem witness_push : fullState.ibuf.length = 264 ∧ (block 7 0 (counting 263) []).ibuf.length ≠ 264 := by
  simp [fullState, block]
theorem witness_pop : State.reset.obuf = [] ∧ (block 7 0 [] [9, 3]).obuf = 9 :: [3] := by decide
theorem witness_drain :
    ({ block 7 0 [] [9, 3] with inputs := hostProgram (List.replicate 3 .pop) } : State).inputs =
      hostProgram (List.replicate (2 + 1) .pop) ∧ 2 ≤ (block 7 0 [] [9, 3]).obuf.length ∧
      ([9, 3] : List Byte)[1]? = some 3 := by decide
theorem witness_checksum :
    expandPseudo Config.mfc (.checksum [1, 3]) = some [.crci, .crcu 1, .crcu 3] ∧
      ({ fullState with inputs := hostProgram [.crci, .crcu 1, .crcu 3] } : State).inputs =
        hostProgram [.crci, .crcu 1, .crcu 3] := by decide
theorem witness_checksumb : (counting 264).length ≤ 264 ∧ ¬ (counting 265).length ≤ 264 := by
  simp
/-- ENCW: the two ways to fail and the largest success. -/
theorem witness_encw :
    (counting 256).length > 255 ∧ (0xFC18 : Word).toNat + 0x03E8 > 0xFFFF ∧
      (counting 255).length ≤ 255 ∧ (0xFFFF : Word).toNat = (0xFC17 : Word).toNat + 0x03E8 := by
  simp
/-- ENCR: the smallest failure and the largest success. -/
theorem witness_encr :
    (0xF830 : Word).toNat + 0x07D0 > 0xFFFF ∧ (0xFFFF : Word).toNat = (0xF82F : Word).toNat + 0x07D0 := by
  decide
theorem witness_address_ranges :
    (0xFC17 : Word).toNat ≤ 0xFC17 ∧ 0xFC17 < (0xFC18 : Word).toNat ∧ (0xF82F : Word).toNat ≤ 0xF82F ∧
      0xF82F < (0xF830 : Word).toNat := by decide
theorem witness_layouts :
    (0xFC17 : Word).toNat + 0x03E8 ≤ 0xFFFF ∧ (0xF82F : Word).toNat + 0x07D0 ≤ 0xFFFF ∧
      (block 7 0 (counting 255) []).ibuf.length ≤ 255 := by simp [block]
theorem witness_built_frame :
    ∃ t, exec (.encr 9 3 0 1) State.reset = .next t ∧ Succeeded t := ⟨_, rfl, _, rfl⟩
theorem witness_failed_encode :
    ∃ t, exec (.encr 9 3 0xFFFF 1) State.reset = .next t ∧ ¬ Succeeded t := by
  refine ⟨_, rfl, fun ⟨v, h⟩ => ?_⟩
  have h0 : (resp 0 5).toNat = (resp v 0).toNat := congrArg (fun o => (o.getD 0).toNat) h
  have h1 : (resp v 0).toNat % 2 ^ 8 = 0 := by simp [resp]; omega
  rw [← h0] at h1
  exact absurd h1 (by decide)
theorem witness_failed_decr :
    ∃ t, exec (.decr 0) State.reset = .next t ∧ ¬ Succeeded t := by
  refine ⟨_, rfl, fun ⟨v, h⟩ => ?_⟩
  have h0 : (resp 0 2).toNat = (resp v 0).toNat := congrArg (fun o => (o.getD 0).toNat) h
  have h1 : (resp v 0).toNat % 2 ^ 8 = 0 := by simp [resp]; omega
  rw [← h0] at h1
  exact absurd h1 (by decide)
theorem witness_illegal_frame_words :
    decode 0x0100000000000031 = .error .reservedField ∧ decode 0x0132 = .error .reservedField := by
  decide
/-- DECR: one byte too few, and just enough, at the largest COUNT that can succeed (V58, V59). -/
theorem witness_decr :
    (counting 262).length < 3 + 2 * (129 : Word).toNat + 2 ∧
      3 + 2 * (129 : Word).toNat + 2 ≤ (counting 263).length := by simp
theorem witness_decr_no_wrap :
    (List.replicate 131075 (0 : Byte)).length = 131075 ∧ fullState.ibuf.length < 131075 :=
  ⟨List.length_replicate, by simp [fullState]⟩
theorem witness_decr_payload :
    ([0x31, 0x00] : List Byte).length = 2 * (1 : Word).toNat ∧
      (block 7 0 [9, 3, 2, 0x31, 0x00, 0x4C, 0x15] []).ibuf =
        [9, 3, 2] ++ [0x31, 0x00] ++ [0x4C, 0x15] := by decide
/-- V50 and V56: two responses with the same payload, one of them wrong everywhere else. -/
theorem witness_decr_same_payload :
    (block 7 0 [0xAA, 0xBB, 0xCC, 0x31, 0, 0, 0] []).ibuf.length =
        (block 7 0 [9, 3, 2, 0x31, 0, 0x4C, 0x15] []).ibuf.length ∧
      ∀ k, 3 ≤ k → k < 3 + 2 * (1 : Word).toNat →
        ([0xAA, 0xBB, 0xCC, 0x31, 0, 0, 0] : List Byte)[k]? =
          ([9, 3, 2, 0x31, 0, 0x4C, 0x15] : List Byte)[k]? := by
  refine ⟨rfl, fun k h1 h2 => ?_⟩
  have h3 : k = 3 ∨ k = 4 := by simp at h2; omega
  rcases h3 with rfl | rfl <;> rfl
theorem witness_same_ibuf : (block 1 2 [3] [4]).ibuf = (block 5 6 [3] [7]).ibuf := rfl

end Sys2Proof.Tests
end

section
/-!
PROOF. The checksum of a concrete byte sequence, one byte step at a time, and the source's vector
(spec/00_scope.md R11).
-/

namespace Sys2Proof.Machine

theorem sealFrame_eq_of_crc16_eq {body : List Byte} {v : Word} (h : crc16 body = v) :
    sealFrame body = body ++ [lowByte v, highByte v] := by
  rw [sealFrame, h, lowByteFirst]

/-- R11's anchor, through the register value after each of the six bytes. -/
theorem crc16_sourceVector : crc16 [0x01, 0x03, 0x00, 0x00, 0x00, 0x0A] = 0xCDC5 := by
  have after1 : crcStep 0xFFFF 0x01 = 0x807E := by decide
  have after2 : crcStep 0x807E 0x03 = 0x2140 := by decide
  have after3 : crcStep 0x2140 0x00 = 0xF020 := by decide
  have after4 : crcStep 0xF020 0x00 = 0xD8F1 := by decide
  have after5 : crcStep 0xD8F1 0x00 = 0x8419 := by decide
  have after6 : crcStep 0x8419 0x0A = 0xCDC5 := by decide
  rw [crc16, crcInit, crcFold_cons, after1, crcFold_cons, after2, crcFold_cons, after3,
    crcFold_cons, after4, crcFold_cons, after5, crcFold_cons, after6, crcFold_nil]

end Sys2Proof.Machine

namespace Sys2Proof.Proofs
open Sys2Proof.Machine

/-- Settles O30: the register value comes from `crc16_sourceVector`, and the sealed frame is the six
bytes followed by that value's low and high byte. -/
theorem sourceChecksumVector : Obligations.SourceChecksumVector := by
  refine ⟨crc16_sourceVector, ?_⟩
  rw [sealFrame_eq_of_crc16_eq crc16_sourceVector]
  decide

end Sys2Proof.Proofs
end

section
/-!
PROOF. What each kind of step and each command can do to STATUS, what reads STATUS (spec/10_state.md R25),
and the values reset leaves (R34, R210).
-/

namespace Sys2Proof.Machine
open Sys2Proof.Safety

/-! ## Equations of the step and of the branching commands -/

theorem step_of_command {s : State} {cw : CommandWord} {rest : List HostInput}
    (h : s.inputs = .command cw :: rest) : step s = execWord cw s := by
  rw [step, takeInput, h]

theorem step_of_hardwareReset {s : State} {rest : List HostInput}
    (h : s.inputs = .hardwareReset :: rest) : step s = .next (hardwareReset s) := by
  rw [step, takeInput, h]

theorem exec_rst (s : State) : exec .rst s = .next (succeed 0 (resetBlock s)) := rfl

theorem exec_rd (reg : Byte) (s : State) :
    exec (.rd reg) s = .next (readCommand Config.mfc reg s) := rfl

theorem exec_push (data : Byte) (s : State) :
    exec (.push data) s = .next (pushByte Config.mfc data s) := rfl

theorem exec_pop_of_empty {s : State} (h : s.obuf = []) : exec .pop s = .next (raise .empty s) := by
  simp only [exec, execPop, h]

theorem exec_pop_of_cons {s : State} {b : Byte} {rest : List Byte} (h : s.obuf = b :: rest) :
    exec .pop s = .next (succeed (b.setWidth 16) (s.setObuf rest)) := by
  simp only [exec, execPop, h]

theorem exec_decr_of_short {s : State} {count : Word}
    (h : decodeReadResponse s.ibuf count = none) :
    exec (.decr count) s = .next (raiseEmptyingObuf .short s) := by
  simp only [exec, execDecr, h]

theorem exec_decr_of_payload {s : State} {count : Word} {payload : List Byte}
    (h : decodeReadResponse s.ibuf count = some payload) :
    exec (.decr count) s =
      .next (succeed (BitVec.ofNat 16 (2 * count.toNat)) (s.setObuf payload)) := by
  simp only [exec, execDecr, h]

/-! ## How a command other than RST completes -/

/-- A completion that clears no STATUS bit: a success on a state with the STATUS and the inputs of `s`,
or an error raised on `s` itself, with OBUF emptied first or not (60_exceptions.md R183). -/
inductive CompletesFrom (s : State) : Result → Prop
  | success (val : Word) (u : State) (hstatus : u.status = s.status) (hinputs : u.inputs = s.inputs) :
      CompletesFrom s (.next (succeed val u))
  | error (e : ErrorCode) : CompletesFrom s (.next (raise e s))
  | errorEmptyingObuf (e : ErrorCode) : CompletesFrom s (.next (raiseEmptyingObuf e s))

theorem emitFrame_completes (body : Option (List Byte)) (s : State) :
    CompletesFrom s (.next (emitFrame body s)) := by
  cases body with
  | none => exact .errorEmptyingObuf .range
  | some bytes => exact .success _ _ rfl rfl

theorem exec_completes {i : Instr} (h : i ≠ .rst) (s : State) : CompletesFrom s (exec i s) := by
  cases i with
  | rst => exact absurd rfl h
  | rd reg =>
    rw [exec_rd]
    cases hr : BlockRegister.ofNumber? reg with
    | none => rw [readCommand_of_reserved hr]; exact .error .illegal
    | some r => rw [readCommand_of_defined hr]; exact .success _ _ rfl rfl
  | push data =>
    rw [exec_push]
    by_cases hfull : s.ibuf.length = Config.mfc.ibufCap
    · rw [pushByte_of_full data hfull]; exact .error .overflow
    · rw [pushByte_of_room data hfull]; exact .success _ _ rfl rfl
  | pop =>
    cases ho : s.obuf with
    | nil => rw [exec_pop_of_empty ho]; exact .error .empty
    | cons b rest => rw [exec_pop_of_cons ho]; exact .success _ _ rfl rfl
  | encw slave func addr count => exact emitFrame_completes _ s
  | encr slave func addr count => exact emitFrame_completes _ s
  | decr count =>
    cases hp : decodeReadResponse s.ibuf count with
    | none => rw [exec_decr_of_short hp]; exact .errorEmptyingObuf .short
    | some payload => rw [exec_decr_of_payload hp]; exact .success _ _ rfl rfl
  | clri | clro | crci | crcu data | crcb => exact .success _ _ rfl rfl

theorem execWord_completes {cw : CommandWord} (h : decode cw ≠ .ok .rst) (s : State) :
    CompletesFrom s (execWord cw s) := by
  cases hd : decode cw with
  | error e => rw [execWord_of_illegal hd]; exact .error .illegal
  | ok i =>
    rw [execWord_of_decode hd]
    exact exec_completes (fun hi => h (hi ▸ hd)) s

theorem CompletesFrom.status {s t : State} (h : CompletesFrom s (.next t)) :
    (Succeeded t ∧ t.status = s.status) ∨
      ∃ e : ErrorCode, FailedWith e t ∧ t.status = latchError e s.status := by
  cases h with
  | success val u hstatus => exact .inl ⟨⟨val, rfl⟩, hstatus⟩
  | error e => exact .inr ⟨e, rfl, rfl⟩
  | errorEmptyingObuf e => exact .inr ⟨e, rfl, rfl⟩

/-! ## What depends on STATUS -/

/-- Both outcomes are next states, and these agree in everything but STATUS. -/
def AgreeButStatus (o o' : Result) : Prop :=
  ∃ (t : State) (w : Word), o = .next t ∧ o' = .next (t.setStatus w)

theorem succeed_agree (val v : Word) (s : State) :
    AgreeButStatus (.next (succeed val s)) (.next (succeed val (s.setStatus v))) :=
  ⟨_, v, rfl, rfl⟩

theorem raise_agree (e : ErrorCode) (v : Word) (s : State) :
    AgreeButStatus (.next (raise e s)) (.next (raise e (s.setStatus v))) :=
  ⟨_, latchError e v, rfl, rfl⟩

theorem raiseEmptyingObuf_agree (e : ErrorCode) (v : Word) (s : State) :
    AgreeButStatus (.next (raiseEmptyingObuf e s)) (.next (raiseEmptyingObuf e (s.setStatus v))) :=
  raise_agree e v (s.setObuf [])

theorem emitFrame_agree (body : Option (List Byte)) (v : Word) (s : State) :
    AgreeButStatus (.next (emitFrame body s)) (.next (emitFrame body (s.setStatus v))) := by
  cases body with
  | none => exact raiseEmptyingObuf_agree .range v s
  | some bytes => exact succeed_agree _ v _

/-- No register but STATUS itself is a view of STATUS (10_state.md R23, R28 to R30). -/
theorem readRegister_setStatus {r : BlockRegister} (h : r ≠ .status) (cfg : Cfg) (v : Word)
    (s : State) : readRegister cfg r (s.setStatus v) = readRegister cfg r s := by
  cases r with
  | status => exact absurd rfl h
  | _ => rfl

theorem ofNumber_eq_status {reg : Byte} (h : BlockRegister.ofNumber? reg = some .status) :
    reg = 0x02 := by
  revert reg; decide +kernel

theorem exec_agree {i : Instr} (h : i ≠ .rd 0x02) (v : Word) (s : State) :
    AgreeButStatus (exec i s) (exec i (s.setStatus v)) := by
  cases i with
  | rst => exact ⟨_, 0, rfl, rfl⟩
  | rd reg =>
    rw [exec_rd, exec_rd]
    cases hr : BlockRegister.ofNumber? reg with
    | none =>
      rw [readCommand_of_reserved hr, readCommand_of_reserved hr]
      exact raise_agree .illegal v s
    | some r =>
      have hr' : r ≠ .status := fun hs => h (congrArg Instr.rd (ofNumber_eq_status (hs ▸ hr)))
      rw [readCommand_of_defined hr, readCommand_of_defined hr, readRegister_setStatus hr']
      exact succeed_agree _ v s
  | push data =>
    rw [exec_push, exec_push]
    by_cases hfull : s.ibuf.length = Config.mfc.ibufCap
    · rw [pushByte_of_full data hfull, pushByte_of_full (s := s.setStatus v) data hfull]
      exact raise_agree .overflow v s
    · rw [pushByte_of_room data hfull, pushByte_of_room (s := s.setStatus v) data hfull]
      exact succeed_agree _ v (s.setIbuf _)
  | pop =>
    cases ho : s.obuf with
    | nil =>
      rw [exec_pop_of_empty ho, exec_pop_of_empty (s := s.setStatus v) ho]
      exact raise_agree .empty v s
    | cons b rest =>
      rw [exec_pop_of_cons ho, exec_pop_of_cons (s := s.setStatus v) ho]
      exact succeed_agree _ v (s.setObuf rest)
  | encw slave func addr count => exact emitFrame_agree _ v s
  | encr slave func addr count => exact emitFrame_agree _ v s
  | decr count =>
    cases hp : decodeReadResponse s.ibuf count with
    | none =>
      rw [exec_decr_of_short hp, exec_decr_of_short (s := s.setStatus v) hp]
      exact raiseEmptyingObuf_agree .short v s
    | some payload =>
      rw [exec_decr_of_payload hp, exec_decr_of_payload (s := s.setStatus v) hp]
      exact succeed_agree _ v (s.setObuf payload)
  | clri => exact succeed_agree _ v (s.setIbuf [])
  | clro => exact succeed_agree _ v (s.setObuf [])
  | crci | crcu data | crcb => exact succeed_agree _ v (s.setCrc _)

theorem execWord_agree {cw : CommandWord} (h : decode cw ≠ .ok (.rd 0x02)) (v : Word) (s : State) :
    AgreeButStatus (execWord cw s) (execWord cw (s.setStatus v)) := by
  cases hd : decode cw with
  | error e =>
    rw [execWord_of_illegal hd, execWord_of_illegal hd]
    exact raise_agree .illegal v s
  | ok i =>
    rw [execWord_of_decode hd, execWord_of_decode hd]
    exact exec_agree (fun hi => h (hi ▸ hd)) v s

/-! ## What reset leaves -/

/-- R34's values of the four items. -/
def HasResetItems (t : State) : Prop :=
  t.crc = 0xFFFF ∧ t.status = 0x0000 ∧ t.ibuf = [] ∧ t.obuf = []

theorem reset_hasResetItems : HasResetItems State.reset :=
  ⟨reset_crc, reset_status, reset_ibuf, reset_obuf⟩

theorem resetBlock_hasResetItems (s : State) : HasResetItems (resetBlock s) :=
  ⟨resetBlock_crc s, resetBlock_status s, resetBlock_ibuf s, resetBlock_obuf s⟩

theorem crcw_reset : crcw 0xFFFF = 0xFFFF := by decide

end Sys2Proof.Machine

namespace Sys2Proof.Proofs
open Sys2Proof.Machine Sys2Proof.Safety

/-- Settles O20: `execWord_completes` gives the two ways a word other than RST treats STATUS, and
`execWord_agree` that replacing STATUS changes STATUS alone. -/
theorem statusIsSticky : Obligations.StatusIsSticky := by
  refine ⟨fun s t cw rest hin hrst hstep => ?_, fun s => ⟨_, exec_rst s, rfl⟩,
    fun s rest hin => ⟨_, step_of_hardwareReset hin, rfl⟩, fun s cw rest v hin hrd => ?_⟩
  · have hc : CompletesFrom s (step s) := step_of_command hin ▸ execWord_completes hrst s
    exact (hstep ▸ hc).status
  · obtain ⟨t, w, ht, ht'⟩ := execWord_agree hrd v s
    have hin' : (s.setStatus v).inputs = .command cw :: rest := hin
    exact ⟨t, t.setStatus w, (step_of_command hin).trans ht, (step_of_command hin').trans ht',
      rfl, rfl, rfl, rfl⟩

/-- Settles O12: each of the three ways to reset leaves the reset values in the four items, and those
fix every view; the other registers are constants of the configuration. -/
theorem resetLeavesSpecifiedState : Obligations.ResetLeavesSpecifiedState := by
  intro t ht
  have items : HasResetItems t := by
    rcases ht with rfl | ⟨s, rest, hin, hstep⟩ | ⟨s, hexec⟩
    · exact reset_hasResetItems
    · rw [step_of_hardwareReset hin] at hstep
      cases hstep
      exact resetBlock_hasResetItems s
    · cases hexec
      exact resetBlock_hasResetItems s
  obtain ⟨hcrc, hstatus, hibuf, hobuf⟩ := items
  have hcrcw : readRegister Config.mfc .crcw t = 0xFFFF := by rw [readRegister, hcrc, crcw_reset]
  have hilen : readRegister Config.mfc .ilen t = 0 := by rw [readRegister, hibuf]; rfl
  have holen : readRegister Config.mfc .olen t = 0 := by rw [readRegister, hobuf]; rfl
  exact ⟨hcrc, hstatus, hibuf, hobuf, hcrcw, hilen, holen, rfl, rfl, rfl, rfl, rfl, rfl⟩

end Sys2Proof.Proofs
end

section
/-!
PROOF. The one response word every command word is answered with (spec/30_encoding.md R73).
-/

namespace Sys2Proof.Machine

/-- The completion R73 describes: a next state with a response word whose VAL is 0 when ERR is not. -/
def ReturnsResponse (o : Result) : Prop :=
  ∃ (t : State) (val : Word) (err : Byte),
    o = .next t ∧ t.response = some (resp val err) ∧ (err ≠ 0 → val = 0)

theorem succeed_returnsResponse (val : Word) (s : State) :
    ReturnsResponse (.next (succeed val s)) :=
  ⟨_, val, 0, rfl, succeed_response s val, fun h => absurd rfl h⟩

theorem raise_returnsResponse (e : ErrorCode) (s : State) : ReturnsResponse (.next (raise e s)) :=
  ⟨_, 0, e.code, rfl, raise_response s e, fun _ => rfl⟩

theorem CompletesFrom.returnsResponse {s : State} {o : Result} (h : CompletesFrom s o) :
    ReturnsResponse o := by
  cases h with
  | success val u _ _ => exact succeed_returnsResponse val u
  | error e => exact raise_returnsResponse e s
  | errorEmptyingObuf e => exact raise_returnsResponse e (s.setObuf [])

theorem execWord_returnsResponse (cw : CommandWord) (s : State) :
    ReturnsResponse (execWord cw s) := by
  by_cases hrst : decode cw = .ok .rst
  · rw [execWord_of_decode hrst, exec_rst]
    exact succeed_returnsResponse 0 (resetBlock s)
  · exact (execWord_completes hrst s).returnsResponse

end Sys2Proof.Machine

namespace Sys2Proof.Proofs
open Sys2Proof.Machine

/-- Settles O16: `execWord_returnsResponse` gives the response word, and the laws of `resp` its fields. -/
theorem everyCommandReturnsResponse : Obligations.EveryCommandReturnsResponse := by
  intro s cw rest hin
  obtain ⟨t, val, err, hexec, hresp, hval⟩ := execWord_returnsResponse cw s
  exact ⟨t, resp val err, val, err, (step_of_command hin).trans hexec, hresp, resp_toNat val err,
    respErr_resp val err, respZero_resp val err, respVal_resp val err, hval⟩

end Sys2Proof.Proofs
end

section
/-!
PROOF. The fields of a command word as numbers (spec/30_encoding.md R71), which words the decoder
refuses (R77 to R81), and how a refused word is answered (60_exceptions.md R184).
-/

namespace Sys2Proof

/-! ## Fields as numbers -/

section Fields

variable (cw : CommandWord)

theorem opField_toNat : (opField cw).toNat = cw.toNat % 2 ^ 8 := by
  rw [opField, BitVec.extractLsb'_toNat, Nat.shiftRight_zero]

theorem aField_toNat : (aField cw).toNat = cw.toNat / 2 ^ 8 % 2 ^ 8 := by
  rw [aField, BitVec.extractLsb'_toNat, Nat.shiftRight_eq_div_pow]

theorem funcField_toNat : (funcField cw).toNat = cw.toNat / 2 ^ 16 % 2 ^ 8 := by
  rw [funcField, BitVec.extractLsb'_toNat, Nat.shiftRight_eq_div_pow]

theorem addrField_toNat : (addrField cw).toNat = cw.toNat / 2 ^ 24 % 2 ^ 16 := by
  rw [addrField, BitVec.extractLsb'_toNat, Nat.shiftRight_eq_div_pow]

theorem countField_toNat : (countField cw).toNat = cw.toNat / 2 ^ 40 % 2 ^ 16 := by
  rw [countField, BitVec.extractLsb'_toNat, Nat.shiftRight_eq_div_pow]

theorem rsvField_toNat : (rsvField cw).toNat = cw.toNat / 2 ^ 56 := by
  rw [rsvField, BitVec.extractLsb'_toNat, Nat.shiftRight_eq_div_pow]
  exact Nat.mod_eq_of_lt (by have := cw.isLt; omega)

theorem toNat_eq_sum_of_fields :
    cw.toNat = (opField cw).toNat + (aField cw).toNat * 2 ^ 8 + (funcField cw).toNat * 2 ^ 16
      + (addrField cw).toNat * 2 ^ 24 + (countField cw).toNat * 2 ^ 40
      + (rsvField cw).toNat * 2 ^ 56 := by
  rw [← assembleWord_toNat, assembleWord_fields]

end Fields

/-! ## The opcode table -/

theorem code_of_ofCode {b : Byte} {op : Opcode} (h : Opcode.ofCode? b = some op) : op.code = b :=
  eq_of_beq (List.find?_some (p := fun op : Opcode => op.code == b) h)

theorem ofCode_code (op : Opcode) : Opcode.ofCode? op.code = some op := by cases op <;> rfl

/-- The OP column of R76 as numbers. -/
theorem code_toNat_mem (op : Opcode) :
    op.code.toNat ∈
      [0x01, 0x02, 0x10, 0x11, 0x12, 0x13, 0x20, 0x21, 0x22, 0x30, 0x31, 0x32] := by
  cases op <;> decide

theorem ofCode_eq_none_of_reserved {b : Byte}
    (h : b.toNat ∉ [0x01, 0x02, 0x10, 0x11, 0x12, 0x13, 0x20, 0x21, 0x22, 0x30, 0x31, 0x32]) :
    Opcode.ofCode? b = none := by
  cases hop : Opcode.ofCode? b with
  | none => rfl
  | some op => exact absurd (code_of_ofCode hop ▸ code_toNat_mem op) h

theorem matchWord_toNat (op : Opcode) : op.matchWord.toNat = op.code.toNat := by
  cases op <;> rfl

/-- The rows of R76 are the match and mask of each opcode. -/
theorem exists_opcode_of_mem_specRows {r : CommandWord × CommandWord} (h : r ∈ Safety.specRows) :
    ∃ op : Opcode, r = (op.matchWord, op.format.mask) := by
  have rows : Safety.specRows =
      [Opcode.rst, .rd, .clri, .push, .clro, .pop, .crci, .crcu, .crcb, .encw, .encr, .decr].map
        (fun op => (op.matchWord, op.format.mask)) := by decide
  obtain ⟨op, -, hop⟩ := List.mem_map.mp (rows ▸ h)
  exact ⟨op, hop.symm⟩

/-! ## What the decoder answers -/

theorem decode_of_reservedOpcode {cw : CommandWord} (h : Opcode.ofCode? (opField cw) = none) :
    decode cw = .error .reservedOpcode := by
  simp only [decode, h]

theorem decode_of_reservedField {cw : CommandWord} {op : Opcode} (hop : opField cw = op.code)
    (hmask : cw &&& op.format.mask ≠ op.matchWord) : decode cw = .error .reservedField := by
  simp only [decode, hop, ofCode_code, if_neg hmask]

theorem decode_of_row {cw : CommandWord} {op : Opcode} (hop : opField cw = op.code)
    (hmask : cw &&& op.format.mask = op.matchWord) : decode cw = decodeRow op cw := by
  simp only [decode, hop, ofCode_code, if_pos hmask]

/-- Every format's mask covers RSV (R72), so no row matches a word with a non-zero RSV. -/
theorem decode_illegal_of_rsv {cw : CommandWord} (h : rsvField cw ≠ 0) :
    ∃ e, decode cw = .error e := by
  cases hop : Opcode.ofCode? (opField cw) with
  | none => exact ⟨_, decode_of_reservedOpcode hop⟩
  | some op =>
    refine ⟨_, decode_of_reservedField (code_of_ofCode hop).symm fun hmask => ?_⟩
    obtain ⟨-, -, -, -, -, hrsv⟩ := (mask_test_iff op cw).mp hmask
    exact h hrsv

theorem ofNumber_eq_none_of_reserved {reg : Byte}
    (h : reg.toNat ∉ [0, 1, 2, 3, 4, 8, 9, 10, 11, 12, 13]) :
    BlockRegister.ofNumber? reg = none := by
  rw [ofNumber_eq_none_iff]
  simp only [List.mem_cons, List.not_mem_nil, or_false] at h
  omega

theorem encode_rd (reg : Byte) :
    encode (.rd reg) = BitVec.ofNat 64 (0x02 + reg.toNat * 2 ^ 8) := by
  simp [encode, assembleWord]

theorem decode_rd_of_reserved {reg : Byte} (h : BlockRegister.ofNumber? reg = none) :
    decode (encode (.rd reg)) = .error .reservedRegister := by
  have hop : opField (encode (.rd reg)) = Opcode.rd.code := opField_assembleWord ..
  have ha : aField (encode (.rd reg)) = reg := aField_assembleWord ..
  rw [decode_of_row hop (Laws.RowMatch.rd reg)]
  simp only [decodeRow, ha, h]

end Sys2Proof

namespace Sys2Proof.Machine
open Sys2Proof.Safety

/-! ## The answer to an illegal word -/

theorem raise_answersIllegal (s : State) : AnswersIllegal (.next (raise .illegal s)) s :=
  ⟨_, rfl, rfl, rfl, rfl, rfl, rfl⟩

theorem step_answersIllegal {s : State} {cw : CommandWord} {rest : List HostInput} {e : DecodeError}
    (hin : s.inputs = .command cw :: rest) (hd : decode cw = .error e) :
    AnswersIllegal (step s) s := by
  rw [step_of_command hin, execWord_of_illegal hd]
  exact raise_answersIllegal s

end Sys2Proof.Machine

namespace Sys2Proof.Proofs
open Sys2Proof.Machine Sys2Proof.Safety

/-- Settles O1: one lemma per field, their sum from `assembleWord_fields`, and the mask test refuses a
non-zero RSV. -/
theorem commandWordFields : Obligations.CommandWordFields := fun cw =>
  ⟨opField_toNat cw, aField_toNat cw, funcField_toNat cw, addrField_toNat cw, countField_toNat cw,
    rsvField_toNat cw, toNat_eq_sum_of_fields cw, decode_illegal_of_rsv⟩

/-- Settles O6: no row of the opcode table has the opcode. -/
theorem reservedOpcodesAreIllegal : Obligations.ReservedOpcodesAreIllegal := by
  intro s cw rest hin hop
  rw [← opField_toNat] at hop
  exact step_answersIllegal hin (decode_of_reservedOpcode (ofCode_eq_none_of_reserved hop))

/-- Settles O7: the opcode selects its row, and that row's mask test fails. -/
theorem reservedFieldsAreIllegal : Obligations.ReservedFieldsAreIllegal := by
  intro s cw rest hin r hr hcode hmask
  obtain ⟨op, rfl⟩ := exists_opcode_of_mem_specRows hr
  have hop : opField cw = op.code := by
    apply BitVec.eq_of_toNat_eq
    rw [opField_toNat, hcode, matchWord_toNat]
  exact step_answersIllegal hin (decode_of_reservedField hop hmask)

/-- Settles O8: executed, RD finds no register; presented, the decoder refuses the word. -/
theorem reservedRegistersAreIllegal : Obligations.ReservedRegistersAreIllegal := by
  intro s reg hreg
  have hnone := ofNumber_eq_none_of_reserved hreg
  refine ⟨?_, fun rest hin => ?_⟩
  · rw [exec_rd, readCommand_of_reserved hnone]
    exact raise_answersIllegal s
  · rw [← encode_rd] at hin
    exact step_answersIllegal hin (decode_rd_of_reserved hnone)

end Sys2Proof.Proofs
end

section
/-!
PROOF. The bytes of the two request frames by index (spec/30_encoding.md R83, R84).
-/

namespace Sys2Proof.Machine

/-! ## The bytes of a 16-bit value -/

theorem highByte_eq_ofNat (v : Word) : highByte v = BitVec.ofNat 8 (v.toNat / 256) := by
  apply BitVec.eq_of_toNat_eq
  rw [highByte, BitVec.extractLsb'_toNat, Nat.shiftRight_eq_div_pow, BitVec.toNat_ofNat]

theorem lowByte_eq_ofNat (v : Word) : lowByte v = BitVec.ofNat 8 (v.toNat % 256) := by
  apply BitVec.eq_of_toNat_eq
  rw [lowByte, BitVec.extractLsb'_toNat, Nat.shiftRight_zero, BitVec.toNat_ofNat, Nat.mod_mod]

/-- A start address that fits its field (41_frame_encode.md R130), with its two bytes. -/
theorem exists_startAddress {base addr : Word} (h : addr.toNat + base.toNat ≤ 0xFFFF) :
    ∃ a, startAddress base addr = some a ∧
      highByte a = BitVec.ofNat 8 ((addr.toNat + base.toNat) / 256) ∧
      lowByte a = BitVec.ofNat 8 ((addr.toNat + base.toNat) % 256) := by
  cases ha : startAddress base addr with
  | none => exact absurd ((startAddress_eq_none_iff base addr).mp ha) (Nat.not_lt.mpr h)
  | some a =>
    rw [← startAddress_eq_some ha]
    exact ⟨a, rfl, highByte_eq_ofNat a, lowByte_eq_ofNat a⟩

/-! ## A sealed frame by index -/

section Sealed

variable {body : List Byte} {n m : Nat}

theorem sealFrame_take_of_length (hn : body.length = n) : (sealFrame body).take n = body :=
  List.take_left' hn

theorem sealFrame_getElem?_of_lt (h : n < body.length) : (sealFrame body)[n]? = body[n]? :=
  List.getElem?_append_left h

/-- The first byte after the body is the low byte of the checksum of all bytes before it (R89). -/
theorem sealFrame_getElem?_low (hn : body.length = n) :
    (sealFrame body)[n]? = some (lowByte (crc16 ((sealFrame body).take n))) := by
  rw [sealFrame_take_of_length hn, sealFrame, List.getElem?_append_right hn.le, hn, Nat.sub_self]
  rfl

/-- The second byte after the body is the checksum's high byte. -/
theorem sealFrame_getElem?_high (hn : body.length = n) (hm : m = n + 1) :
    (sealFrame body)[m]? = some (highByte (crc16 ((sealFrame body).take n))) := by
  rw [sealFrame_take_of_length hn, sealFrame, hm, List.getElem?_append_right (by omega), hn,
    Nat.add_sub_cancel_left]
  rfl

end Sealed

/-! ## ENCW and ENCR once their body is formed -/

theorem emitFrame_some_obuf (body : List Byte) (s : State) :
    (emitFrame (some body) s).obuf = sealFrame body := rfl

theorem exec_encw_of_body {slave func : Byte} {addr count : Word} {s : State} {body : List Byte}
    (h : writeRequestBody Config.mfc slave func addr count s.ibuf = some body) :
    exec (.encw slave func addr count) s = .next (emitFrame (some body) s) := by
  rw [exec, execEncw, encodeWrite, h]

theorem exec_encr_of_body {slave func : Byte} {addr count : Word} {s : State} {body : List Byte}
    (h : readRequestBody Config.mfc slave func addr count = some body) :
    exec (.encr slave func addr count) s = .next (emitFrame (some body) s) := by
  rw [exec, execEncr, encodeRead, h]

theorem writeFrame_getElem?_payload (slave func : Byte) (a count : Word) (n : Byte)
    {payload : List Byte} {k : Nat} (hk : k < payload.length) :
    (sealFrame (requestHeader slave func a count ++ [n] ++ payload))[7 + k]? = payload[k]? := by
  have hhead : (requestHeader slave func a count ++ [n]).length = 7 := rfl
  rw [sealFrame_getElem?_of_lt (by rw [List.length_append, hhead]; omega),
    List.getElem?_append_right (by omega), hhead, Nat.add_sub_cancel_left]

end Sys2Proof.Machine

namespace Sys2Proof.Proofs
open Sys2Proof.Machine

/-- Settles O41: the seven header bytes by computation on the frame's head, the payload and the checksum
by their places in the sealed frame. -/
theorem writeRequestLayout : Obligations.WriteRequestLayout := by
  intro slave func addr count s hlen haddr
  obtain ⟨a, ha, hhigh, hlow⟩ := exists_startAddress (base := Config.mfc.writeBase) haddr
  have hbody := (writeRequestBody_eq_some_iff Config.mfc slave func addr count s.ibuf _).mpr
    ⟨hlen, a, ha, rfl⟩
  obtain ⟨hbodyLen, -⟩ := writeRequestBody_length hbody
  refine ⟨_, exec_encw_of_body hbody, ?_, rfl, rfl, congrArg some hhigh, congrArg some hlow,
    congrArg some (highByte_eq_ofNat count), congrArg some (lowByte_eq_ofNat count), rfl,
    fun k hk => writeFrame_getElem?_payload slave func a count _ hk,
    sealFrame_getElem?_low hbodyLen, sealFrame_getElem?_high hbodyLen (by omega)⟩
  rw [emitFrame_some_obuf, sealFrame_length, hbodyLen]
  omega

/-- Settles O42: the six header bytes by computation on the frame's head, the checksum by its place in
the sealed frame. -/
theorem readRequestLayout : Obligations.ReadRequestLayout := by
  intro slave func addr count s haddr
  obtain ⟨a, ha, hhigh, hlow⟩ := exists_startAddress (base := Config.mfc.readBase) haddr
  have hbody := (readRequestBody_eq_some_iff Config.mfc slave func addr count _).mpr ⟨a, ha, rfl⟩
  have hbodyLen := readRequestBody_length hbody
  exact ⟨_, exec_encr_of_body hbody, sealFrame_length _, rfl, rfl, congrArg some hhigh,
    congrArg some hlow, congrArg some (highByte_eq_ofNat count),
    congrArg some (lowByte_eq_ofNat count), sealFrame_getElem?_low hbodyLen,
    sealFrame_getElem?_high hbodyLen rfl⟩

end Sys2Proof.Proofs
end

section
/-!
PROOF. How a success is answered, and the CRC unit's commands CRCI and CRCB, which always succeed
(spec/40_crc.md R116, R118, R119).
-/

namespace Sys2Proof.Machine
open Sys2Proof.Safety

/-! ## The answer to a success -/

theorem succeed_answers (val : Word) (s : State) :
    Answers (.next (succeed val s)) s.crc s.status s.ibuf s.obuf (resp val 0) :=
  ⟨_, rfl, succeed_crc s val, succeed_status s val, succeed_ibuf s val, succeed_obuf s val,
    succeed_response s val⟩

theorem writeCrc_answers (v : Word) (s : State) :
    Answers (.next (writeCrc v s)) v s.status s.ibuf s.obuf (resp v 0) :=
  succeed_answers v (s.setCrc v)

/-! ## The commands -/

theorem exec_crci (s : State) : exec .crci s = .next (writeCrc 0xFFFF s) := rfl

theorem exec_crcb (s : State) : exec .crcb s = .next (writeCrc (crc16 s.ibuf) s) := rfl

theorem decode_crciWord : decode 0x0000000000000020 = .ok .crci :=
  decode_of_row (op := .crci) (by decide) Laws.RowMatch.crci

theorem decode_crcbWord : decode 0x0000000000000022 = .ok .crcb :=
  decode_of_row (op := .crcb) (by decide) Laws.RowMatch.crcb

end Sys2Proof.Machine

namespace Sys2Proof.Proofs
open Sys2Proof.Machine

/-- Settles O33: the word selects the CRCI row, and CRCI is a CRC write of the initial value. -/
theorem crciCommand : Obligations.CrciCommand := by
  refine ⟨decode_crciWord, fun s => ?_⟩
  rw [exec_crci]
  exact writeCrc_answers 0xFFFF s

/-- Settles O35: the word selects the CRCB row, and CRCB is a CRC write of a value that depends on IBUF
alone. -/
theorem crcbCommand : Obligations.CrcbCommand := by
  refine ⟨decode_crcbWord, fun s => ?_⟩
  rw [exec_crcb]
  exact writeCrc_answers (crc16 s.ibuf) s

end Sys2Proof.Proofs
end

section
/-!
PROOF. The encode commands ENCW and ENCR (spec/41_frame_encode.md R130 to R138): their command words,
when their body is formed, and how each of the two outcomes is answered.
-/

namespace Sys2Proof

/-! ## The command words -/

section Words

variable (slave func : Byte) (addr count : Word)

theorem encode_encw :
    encode (.encw slave func addr count) =
      BitVec.ofNat 64 (0x30 + slave.toNat * 2 ^ 8 + func.toNat * 2 ^ 16 + addr.toNat * 2 ^ 24
        + count.toNat * 2 ^ 40) := by
  simp [encode, assembleWord]

theorem encode_encr :
    encode (.encr slave func addr count) =
      BitVec.ofNat 64 (0x31 + slave.toNat * 2 ^ 8 + func.toNat * 2 ^ 16 + addr.toNat * 2 ^ 24
        + count.toNat * 2 ^ 40) := by
  simp [encode, assembleWord]

theorem decode_encode_encw :
    decode (encode (.encw slave func addr count)) = .ok (.encw slave func addr count) := by
  have hop : opField (encode (.encw slave func addr count)) = Opcode.encw.code :=
    opField_assembleWord ..
  rw [decode_of_row hop (Laws.RowMatch.encw slave func addr count)]
  simp [decodeRow, encode]

theorem decode_encode_encr :
    decode (encode (.encr slave func addr count)) = .ok (.encr slave func addr count) := by
  have hop : opField (encode (.encr slave func addr count)) = Opcode.encr.code :=
    opField_assembleWord ..
  rw [decode_of_row hop (Laws.RowMatch.encr slave func addr count)]
  simp [decodeRow, encode]

end Words

end Sys2Proof

namespace Sys2Proof.Machine
open Sys2Proof.Safety

/-! ## When the body is formed -/

/-- The two bytes of a header field, read big-endian, are the field's value (R16). -/
theorem highByte_lowByte_toNat (v : Word) :
    (highByte v).toNat * 2 ^ 8 + (lowByte v).toNat = v.toNat := by
  rw [highByte_eq_ofNat, lowByte_eq_ofNat, BitVec.toNat_ofNat, BitVec.toNat_ofNat]
  omega

theorem startAddress_of_toNat {base addr a : Word} (h : a.toNat = addr.toNat + base.toNat) :
    startAddress base addr = some a := by
  obtain ⟨a', ha', -, -⟩ := exists_startAddress (h ▸ Nat.le_of_lt_succ a.isLt)
  rw [ha', BitVec.eq_of_toNat_eq ((startAddress_eq_some ha').trans h.symm)]

section Bodies

variable {cfg : Cfg} {slave func : Byte} {addr count a : Word} {payload : List Byte}

theorem writeRequestBody_of_startAddress (hlen : payload.length ≤ 255)
    (ha : startAddress cfg.writeBase addr = some a) :
    writeRequestBody cfg slave func addr count payload =
      some (requestHeader slave func a count ++ [BitVec.ofNat 8 payload.length] ++ payload) :=
  (writeRequestBody_eq_some_iff ..).mpr ⟨hlen, a, ha, rfl⟩

theorem readRequestBody_of_startAddress (ha : startAddress cfg.readBase addr = some a) :
    readRequestBody cfg slave func addr count = some (requestHeader slave func a count) :=
  (readRequestBody_eq_some_iff ..).mpr ⟨a, ha, rfl⟩

theorem writeRequestBody_eq_none
    (h : 255 < payload.length ∨ 0xFFFF < addr.toNat + cfg.writeBase.toNat) :
    writeRequestBody cfg slave func addr count payload = none := by
  refine Option.eq_none_iff_forall_ne_some.mpr fun body hbody => ?_
  obtain ⟨hlen, a, ha, -⟩ := (writeRequestBody_eq_some_iff ..).mp hbody
  have hsum := startAddress_eq_some ha
  omega

theorem readRequestBody_eq_none (h : 0xFFFF < addr.toNat + cfg.readBase.toNat) :
    readRequestBody cfg slave func addr count = none := by
  rw [readRequestBody, (startAddress_eq_none_iff ..).mpr h]

end Bodies

/-! ## The commands put their body's frame into OBUF -/

theorem exec_encw (slave func : Byte) (addr count : Word) (s : State) :
    exec (.encw slave func addr count) s =
      .next (emitFrame (writeRequestBody Config.mfc slave func addr count s.ibuf) s) := rfl

theorem exec_encr (slave func : Byte) (addr count : Word) (s : State) :
    exec (.encr slave func addr count) s =
      .next (emitFrame (readRequestBody Config.mfc slave func addr count) s) := rfl

theorem exec_encode_eq_emitFrame {i : Instr} (h : opcodeOf i = .encw ∨ opcodeOf i = .encr)
    (s : State) : ∃ body, exec i s = .next (emitFrame body s) := by
  cases i with
  | encw slave func addr count => exact ⟨_, exec_encw slave func addr count s⟩
  | encr slave func addr count => exact ⟨_, exec_encr slave func addr count s⟩
  | rst | rd | clri | push | clro | pop | crci | crcu | crcb | decr => simp [opcodeOf] at h

/-! ## The two outcomes of emitting a frame -/

theorem emitFrame_none_answers (s : State) :
    Answers (.next (emitFrame none s)) s.crc (s.status ||| 0x0010) s.ibuf [] (resp 0 5) :=
  ⟨_, rfl, rfl, rfl, rfl, rfl, rfl⟩

theorem emitFrame_some_answers (body : List Byte) (s : State) :
    Answers (.next (emitFrame (some body) s)) (crc16 body) s.status s.ibuf (sealFrame body)
      (resp (lengthWord (sealFrame body)) 0) :=
  succeed_answers _ ((s.setObuf (sealFrame body)).setCrc (crc16 body))

theorem emitFrame_some_succeeded (body : List Byte) (s : State) :
    Succeeded (emitFrame (some body) s) := ⟨_, rfl⟩

theorem emitFrame_none_failedWith (s : State) : FailedWith .range (emitFrame none s) := rfl

theorem not_succeeded_of_failedWith {e : ErrorCode} {t : State} (h : FailedWith e t) :
    ¬ Succeeded t := by
  rintro ⟨v, hv⟩
  have herr := congrArg respErr (Option.some.inj (h.symm.trans hv))
  rw [respErr_resp, respErr_resp] at herr
  exact errorCode_code_ne_zero e herr

/-- What emitting a frame writes is a function of the frame's body only (R136). -/
theorem emitFrame_independent (body : Option (List Byte)) (s s' : State) :
    (emitFrame body s').obuf = (emitFrame body s).obuf ∧
      (emitFrame body s').response = (emitFrame body s).response ∧
      (Succeeded (emitFrame body s) → (emitFrame body s').crc = (emitFrame body s).crc) := by
  cases body with
  | none =>
    exact ⟨rfl, rfl, fun h => absurd h (not_succeeded_of_failedWith (emitFrame_none_failedWith s))⟩
  | some body => exact ⟨rfl, rfl, fun _ => rfl⟩

/-! ## The parts of a sealed frame -/

/-- The last two bytes are the checksum of all bytes before them (R89). -/
theorem sealFrame_drop_checksum (body : List Byte) :
    (sealFrame body).drop ((sealFrame body).length - 2) =
      lowByteFirst (crc16 ((sealFrame body).take ((sealFrame body).length - 2))) := by
  rw [sealFrame_length, Nat.add_sub_cancel, sealFrame_take_of_length rfl, sealFrame,
    List.drop_left]

theorem sealFrame_between_ids_and_checksum {body : List Byte} (h : 2 ≤ body.length) :
    ((sealFrame body).drop 2).dropLast.dropLast = body.drop 2 := by
  rw [sealFrame, List.drop_append_of_le_length h]
  simp [lowByteFirst, List.dropLast_append_of_ne_nil]

end Sys2Proof.Machine

namespace Sys2Proof.Proofs
open Sys2Proof.Machine Sys2Proof.Safety

/-- Settles O46: the body is formed from the operands and, for ENCW, from IBUF; what is emitted depends
on the body only. -/
theorem encodingIsDeterministic : Obligations.EncodingIsDeterministic := by
  intro slave func addr count s s'
  refine ⟨fun hibuf => ⟨_, _, exec_encw .., exec_encw .., ?_⟩,
    _, _, exec_encr .., exec_encr .., emitFrame_independent _ s s'⟩
  rw [hibuf]
  exact emitFrame_independent _ s s'

/-- Settles O38: the failing conditions leave no body, and the body of R131 is the one ENCW forms. -/
theorem encwCommand : Obligations.EncwCommand := by
  intro slave func addr count s
  refine ⟨encode_encw slave func addr count ▸ decode_encode_encw slave func addr count,
    fun hfail => ?_, fun a body hlen ha hbody => ?_⟩
  · rw [exec_encw, writeRequestBody_eq_none hfail]
    exact emitFrame_none_answers s
  · have hformed : writeRequestBody Config.mfc slave func addr count s.ibuf = some body :=
      (writeRequestBody_of_startAddress hlen (startAddress_of_toNat ha)).trans
        (congrArg some hbody.symm)
    have hframeLen : (sealFrame body).length = 9 + s.ibuf.length := by
      rw [sealFrame_length, (writeRequestBody_length hformed).1]
      omega
    rw [exec_encw_of_body hformed, ← hframeLen]
    exact emitFrame_some_answers body s

/-- Settles O39: the failing condition leaves no body, and the body of R132 is the one ENCR forms. -/
theorem encrCommand : Obligations.EncrCommand := by
  intro slave func addr count s
  refine ⟨encode_encr slave func addr count ▸ decode_encode_encr slave func addr count,
    fun hfail => ?_, fun a body ha hbody => ?_⟩
  · rw [exec_encr, readRequestBody_eq_none hfail]
    exact emitFrame_none_answers s
  · subst hbody
    rw [exec_encr_of_body (readRequestBody_of_startAddress (startAddress_of_toNat ha))]
    exact emitFrame_some_answers _ s

/-- Settles O40: up to the largest ADDR the sum fits its field and is the value of bytes 2 and 3; above
it no body is formed. -/
theorem startAddressRange : Obligations.StartAddressRange := by
  intro slave func addr count s
  refine ⟨fun hlen => ⟨_, exec_encw .., fun haddr => ?_, fun haddr => ?_⟩,
    _, exec_encr .., fun haddr => ?_, fun haddr => ?_⟩
  · obtain ⟨a, ha, -, -⟩ := exists_startAddress (base := Config.mfc.writeBase)
      (Nat.add_le_add_right haddr _)
    rw [writeRequestBody_of_startAddress hlen ha]
    exact ⟨emitFrame_some_succeeded _ s, highByte a, lowByte a, rfl, rfl,
      (highByte_lowByte_toNat a).trans (startAddress_eq_some ha)⟩
  · rw [writeRequestBody_eq_none (.inr (Nat.add_lt_add_right haddr 0x03E8))]
    exact emitFrame_none_failedWith s
  · obtain ⟨a, ha, -, -⟩ := exists_startAddress (base := Config.mfc.readBase)
      (Nat.add_le_add_right haddr _)
    rw [readRequestBody_of_startAddress ha]
    exact ⟨emitFrame_some_succeeded _ s, highByte a, lowByte a, rfl, rfl,
      (highByte_lowByte_toNat a).trans (startAddress_eq_some ha)⟩
  · rw [readRequestBody_eq_none (Nat.add_lt_add_right haddr 0x07D0)]
    exact emitFrame_none_failedWith s

/-- Settles O44: byte 6 is the payload's length, which fits a byte; COUNT plays no part in it. -/
theorem byteCountIsPayloadLength : Obligations.ByteCountIsPayloadLength := by
  intro slave func addr count s hlen haddr
  obtain ⟨a, ha, -, -⟩ := exists_startAddress (base := Config.mfc.writeBase) haddr
  have hbyte : (BitVec.ofNat 8 s.ibuf.length).toNat = s.ibuf.length :=
    Nat.mod_eq_of_lt (Nat.lt_succ_of_le hlen)
  refine ⟨_, BitVec.ofNat 8 s.ibuf.length,
    exec_encw_of_body (writeRequestBody_of_startAddress hlen ha), emitFrame_some_succeeded _ s, rfl,
    rfl, hbyte, ?_, sealFrame_drop_checksum _⟩
  rw [hbyte]

/-- Settles O45: the two frames' bodies differ in their first two bytes only. -/
theorem slaveAndFunctionAreCopied : Obligations.SlaveAndFunctionAreCopied := by
  intro slave func slave' func' addr count s
  refine ⟨fun hlen haddr => ?_, fun haddr => ?_⟩
  · obtain ⟨a, ha, -, -⟩ := exists_startAddress (base := Config.mfc.writeBase) haddr
    refine ⟨_, _, exec_encw_of_body (writeRequestBody_of_startAddress hlen ha),
      exec_encw_of_body (writeRequestBody_of_startAddress hlen ha), rfl, ?_⟩
    rw [emitFrame_some_obuf, emitFrame_some_obuf,
      sealFrame_between_ids_and_checksum (by simp; omega),
      sealFrame_between_ids_and_checksum (by simp; omega)]
    rfl
  · obtain ⟨a, ha, -, -⟩ := exists_startAddress (base := Config.mfc.readBase) haddr
    refine ⟨_, _, exec_encr_of_body (readRequestBody_of_startAddress ha),
      exec_encr_of_body (readRequestBody_of_startAddress ha), rfl, ?_⟩
    rw [emitFrame_some_obuf, emitFrame_some_obuf, sealFrame_between_ids_and_checksum (by simp),
      sealFrame_between_ids_and_checksum (by simp)]
    rfl

/-- Settles O47: an encode command that forms a body succeeds, so a failing one has none; a word that
does not decode is answered as illegal. -/
theorem failingEncodeCommand : Obligations.FailingEncodeCommand := by
  refine ⟨fun i s t hop hexec hfail => ?_, fun s cw rest hin _ ⟨e, hd⟩ => step_answersIllegal hin hd⟩
  obtain ⟨body, hbody⟩ := exec_encode_eq_emitFrame hop s
  cases hexec.symm.trans hbody
  cases body with
  | some bytes => exact absurd (emitFrame_some_succeeded bytes s) hfail
  | none => exact ⟨rfl, rfl, rfl, rfl, rfl⟩

end Sys2Proof.Proofs
end

section
/-!
PROOF. DECR (spec/42_frame_decode.md R150, R151, R156): its command word, and its two outcomes told
apart by the unbounded length test alone.
-/

namespace Sys2Proof

/-! ## The command word -/

theorem encode_decr (count : Word) :
    encode (.decr count) = BitVec.ofNat 64 (0x32 + count.toNat * 2 ^ 40) := by
  simp [encode, assembleWord]

theorem decode_encode_decr (count : Word) : decode (encode (.decr count)) = .ok (.decr count) := by
  have hop : opField (encode (.decr count)) = Opcode.decr.code := opField_assembleWord ..
  rw [decode_of_row hop (Laws.RowMatch.decr count)]
  simp [decodeRow, encode]

end Sys2Proof

namespace Sys2Proof.Machine
open Sys2Proof.Safety

/-! ## The two outcomes -/

section Outcomes

variable {s : State} {count : Word}

theorem exec_decr_of_lt (h : s.ibuf.length < readResponseLength count) :
    exec (.decr count) s = .next (raiseEmptyingObuf .short s) :=
  exec_decr_of_short (if_pos h)

theorem exec_decr_of_ge (h : readResponseLength count ≤ s.ibuf.length) :
    exec (.decr count) s =
      .next (succeed (BitVec.ofNat 16 (2 * count.toNat))
        (s.setObuf (responsePayload s.ibuf count))) :=
  exec_decr_of_payload (if_neg h.not_gt)

end Outcomes

theorem succeed_succeeded (val : Word) (s : State) : Succeeded (succeed val s) :=
  ⟨val, succeed_response s val⟩

theorem raiseEmptyingObuf_failedWith (e : ErrorCode) (s : State) :
    FailedWith e (raiseEmptyingObuf e s) := raiseEmptyingObuf_response s e

/-- How a failing encode or decode command is answered (60_exceptions.md R183). -/
theorem raiseEmptyingObuf_answers (e : ErrorCode) (s : State) :
    Answers (.next (raiseEmptyingObuf e s)) s.crc (latchError e s.status) s.ibuf []
      (resp 0 e.code) :=
  ⟨_, rfl, raiseEmptyingObuf_crc s e, raiseEmptyingObuf_status s e, raiseEmptyingObuf_ibuf s e,
    raiseEmptyingObuf_obuf s e, raiseEmptyingObuf_response s e⟩

/-- DECR fails with E_SHORT or succeeds, and which of the two the length test says, for any COUNT. -/
theorem exec_decr_outcome_iff (count : Word) (s : State) :
    ∃ t, exec (.decr count) s = .next t ∧
      (FailedWith .short t ↔ s.ibuf.length < readResponseLength count) ∧
      (Succeeded t ↔ readResponseLength count ≤ s.ibuf.length) := by
  rcases lt_or_ge s.ibuf.length (readResponseLength count) with hlt | hge
  · have hfail := raiseEmptyingObuf_failedWith .short s
    exact ⟨_, exec_decr_of_lt hlt, iff_of_true hfail hlt,
      iff_of_false (not_succeeded_of_failedWith hfail) hlt.not_ge⟩
  · have hok := succeed_succeeded (BitVec.ofNat 16 (2 * count.toNat))
      (s.setObuf (responsePayload s.ibuf count))
    exact ⟨_, exec_decr_of_ge hge,
      iff_of_false (fun hfail => not_succeeded_of_failedWith hfail hok) hge.not_gt,
      iff_of_true hok hge⟩

end Sys2Proof.Machine

namespace Sys2Proof.Proofs
open Sys2Proof.Machine Sys2Proof.Safety

/-- Settles O48: the word selects the DECR row, and the length test selects the outcome. -/
theorem decrCommand : Obligations.DecrCommand := by
  intro count s
  refine ⟨encode_decr count ▸ decode_encode_decr count, fun hlt => ?_, fun hge => ?_⟩
  · rw [exec_decr_of_lt hlt]
    exact raiseEmptyingObuf_answers .short s
  · rw [exec_decr_of_ge hge]
    exact succeed_answers _ (s.setObuf (responsePayload s.ibuf count))

/-- Settles O49: the length compared with is a natural number, 131075 at COUNT `0xFFFF`. -/
theorem decrLengthTestDoesNotWrap : Obligations.DecrLengthTestDoesNotWrap := by
  intro n s
  obtain ⟨t, hexec, hfailed, hsucceeded⟩ := exec_decr_outcome_iff n s
  have hlargest : readResponseLength 0xFFFF = 131075 := rfl
  exact ⟨t, hexec, hfailed, fun hn => hlargest ▸ hn ▸ hsucceeded⟩

/-- Settles O52: on enough bytes DECR succeeds, so a failing one has found too few; a word that does not
decode is answered as illegal. -/
theorem failingDecr : Obligations.FailingDecr := by
  refine ⟨fun n s t hexec hfail => ?_, fun s cw rest hin _ ⟨e, hd⟩ => step_answersIllegal hin hd⟩
  rcases lt_or_ge s.ibuf.length (readResponseLength n) with hlt | hge
  · cases hexec.symm.trans (exec_decr_of_lt hlt)
    exact ⟨rfl, rfl, rfl, rfl, rfl⟩
  · cases hexec.symm.trans (exec_decr_of_ge hge)
    exact absurd (succeed_succeeded _ _) hfail

end Sys2Proof.Proofs
end

section
/-!
PROOF. The buffer commands CLRI, PUSH, CLRO and POP (spec/43_buffers.md R160 to R163): their command
words, how each is answered, and successive POPs.
-/

namespace Sys2Proof

/-! ## The command words -/

theorem decode_clriWord : decode 0x0000000000000010 = .ok .clri :=
  decode_of_row (op := .clri) (by decide) Laws.RowMatch.clri

theorem decode_clroWord : decode 0x0000000000000012 = .ok .clro :=
  decode_of_row (op := .clro) (by decide) Laws.RowMatch.clro

theorem decode_popWord : decode 0x0000000000000013 = .ok .pop :=
  decode_of_row (op := .pop) (by decide) Laws.RowMatch.pop

theorem encode_push (data : Byte) :
    encode (.push data) = BitVec.ofNat 64 (0x11 + data.toNat * 2 ^ 8) := by
  simp [encode, assembleWord]

theorem decode_encode_push (data : Byte) : decode (encode (.push data)) = .ok (.push data) := by
  have hop : opField (encode (.push data)) = Opcode.push.code := opField_assembleWord ..
  rw [decode_of_row hop (Laws.RowMatch.push data)]
  simp [decodeRow, encode]

end Sys2Proof

namespace Sys2Proof.Machine
open Sys2Proof.Safety

/-! ## How the commands are answered -/

theorem exec_clri (s : State) : exec .clri s = .next (succeed 0 (s.setIbuf [])) := rfl

theorem exec_clro (s : State) : exec .clro s = .next (succeed 0 (s.setObuf [])) := rfl

/-- How a failing command that keeps OBUF is answered (60_exceptions.md R183). -/
theorem raise_answers (e : ErrorCode) (s : State) :
    Answers (.next (raise e s)) s.crc (latchError e s.status) s.ibuf s.obuf (resp 0 e.code) :=
  ⟨_, rfl, raise_crc s e, raise_status s e, raise_ibuf s e, raise_obuf s e, raise_response s e⟩

theorem lengthWord_append_singleton (bytes : List Byte) (b : Byte) :
    lengthWord (bytes ++ [b]) = BitVec.ofNat 16 (bytes.length + 1) := by
  rw [lengthWord, List.length_append, List.length_singleton]

/-! ## A POP presented at the port, and runs that begin with one -/

theorem run_succ_of_step {s t : State} (h : step s = .next t) (k : Nat) :
    Host.Core.run Sys2Proof.core (k + 1) s = Host.Core.run Sys2Proof.core k t := by
  have hstep : Sys2Proof.core.step s = .next t := h
  simp only [Host.Core.run, hstep]

theorem step_of_decode {s : State} {cw : CommandWord} {rest : List HostInput} {i : Instr}
    (hin : s.inputs = .command cw :: rest) (hd : decode cw = .ok i) : step s = exec i s := by
  rw [step_of_command hin, execWord_of_decode hd]

theorem hostProgram_pops_succ (k : Nat) :
    hostProgram (List.replicate (k + 1) .pop) =
      .command 0x0000000000000013 :: hostProgram (List.replicate k .pop) := rfl

section Pops

variable {s : State} {k : Nat}

theorem run_pops_of_empty (hin : s.inputs = hostProgram (List.replicate (k + 1) .pop))
    (ho : s.obuf = []) :
    Host.Core.run Sys2Proof.core (k + 1) s = Host.Core.run Sys2Proof.core k (raise .empty s) := by
  rw [hostProgram_pops_succ] at hin
  exact run_succ_of_step ((step_of_decode hin decode_popWord).trans (exec_pop_of_empty ho)) k

theorem run_pops_of_cons (hin : s.inputs = hostProgram (List.replicate (k + 1) .pop))
    {b : Byte} {rest : List Byte} (ho : s.obuf = b :: rest) :
    Host.Core.run Sys2Proof.core (k + 1) s =
      Host.Core.run Sys2Proof.core k (succeed (b.setWidth 16) (s.setObuf rest)) := by
  rw [hostProgram_pops_succ] at hin
  exact run_succ_of_step ((step_of_decode hin decode_popWord).trans (exec_pop_of_cons ho)) k

end Pops

end Sys2Proof.Machine

namespace Sys2Proof.Proofs
open Sys2Proof.Machine

/-- Settles O29, by induction on the number of POPs: the first one removes OBUF's first byte and leaves
the remaining POPs at the port, and the last one finds byte `k` at the front, or OBUF empty. -/
theorem drainReturnsObufInOrder : Obligations.DrainReturnsObufInOrder := by
  refine ⟨decode_popWord, fun s k => ?_⟩
  induction k generalizing s with
  | zero =>
    intro _ hin
    cases ho : s.obuf with
    | nil => exact ⟨_, run_pops_of_empty hin ho, rfl, rfl, ho, by simp, fun _ => ⟨rfl, rfl⟩⟩
    | cons b rest => exact ⟨_, run_pops_of_cons hin ho, rfl, rfl, rfl, by simp, by simp⟩
  | succ k ih =>
    intro hk hin
    cases ho : s.obuf with
    | nil => simp [ho] at hk
    | cons b rest =>
      have hk' : k ≤ rest.length := by simpa [ho] using hk
      have hin' : (succeed (b.setWidth 16) (s.setObuf rest)).inputs =
          hostProgram (List.replicate (k + 1) .pop) := by
        rw [succeed_inputs, setObuf_inputs, hin, hostProgram_pops_succ (k + 1), List.tail_cons]
      rw [run_pops_of_cons hin ho]
      simpa using ih _ hk' hin'

/-- Settles O25: the word selects the CLRI row, and CLRI is a success on the state without IBUF. -/
theorem clriCommand : Obligations.ClriCommand := by
  refine ⟨decode_clriWord, fun s => ?_⟩
  rw [exec_clri]
  exact succeed_answers 0 (s.setIbuf [])

/-- Settles O26: the word selects the PUSH row, and whether IBUF is full selects the outcome. -/
theorem pushCommand : Obligations.PushCommand := by
  intro data s
  refine ⟨encode_push data ▸ decode_encode_push data, fun hfull => ?_, fun hroom => ?_⟩
  · rw [exec_push, pushByte_of_full data hfull]
    exact raise_answers .overflow s
  · rw [exec_push, pushByte_of_room data hroom, ← lengthWord_append_singleton s.ibuf data]
    exact succeed_answers _ (s.setIbuf (s.ibuf ++ [data]))

/-- Settles O27: the word selects the CLRO row, and CLRO is a success on the state without OBUF. -/
theorem clroCommand : Obligations.ClroCommand := by
  refine ⟨decode_clroWord, fun s => ?_⟩
  rw [exec_clro]
  exact succeed_answers 0 (s.setObuf [])

end Sys2Proof.Proofs
end

section
/-!
PROOF. The system commands RST and RD (spec/44_system.md R170, R171): their command words, how each is
answered, and the eleven registers RD can name (spec/10_state.md R30).
-/

namespace Sys2Proof

/-! ## The command words -/

theorem decode_rstWord : decode 0x0000000000000001 = .ok .rst :=
  decode_of_row (op := .rst) (by decide) Laws.RowMatch.rst

/-- RST's format fixes every bit (R72), so its row matches one word only. -/
theorem rst_mask_test_iff (cw : CommandWord) :
    cw &&& Opcode.rst.format.mask = Opcode.rst.matchWord ↔ cw = Opcode.rst.matchWord := by
  have hmask : Opcode.rst.format.mask = BitVec.allOnes 64 := by decide
  rw [hmask, BitVec.and_allOnes]

theorem decode_rst_of_otherBits {cw : CommandWord} (hop : opField cw = Opcode.rst.code)
    (hne : cw ≠ Opcode.rst.matchWord) : decode cw = .error .reservedField :=
  decode_of_reservedField hop fun hmask => hne ((rst_mask_test_iff cw).mp hmask)

theorem decode_encode_rd_of_defined {reg : Byte} {r : BlockRegister}
    (h : BlockRegister.ofNumber? reg = some r) : decode (encode (.rd reg)) = .ok (.rd reg) := by
  have hop : opField (encode (.rd reg)) = Opcode.rd.code := opField_assembleWord ..
  have ha : aField (encode (.rd reg)) = reg := aField_assembleWord ..
  rw [decode_of_row hop (Laws.RowMatch.rd reg)]
  simp only [decodeRow, ha, h]

/-! ## The registers and their numbers -/

/-- The number column of 10_state.md R30. -/
def BlockRegister.number : BlockRegister → Byte
  | .crc => 0x00
  | .crcw => 0x01
  | .status => 0x02
  | .ilen => 0x03
  | .olen => 0x04
  | .slaveId => 0x08
  | .fcWrite => 0x09
  | .fcRead => 0x0A
  | .wBase => 0x0B
  | .rBase => 0x0C
  | .wrLen => 0x0D

/-- The rows of R30, in order of their numbers. -/
def BlockRegister.rows : List BlockRegister :=
  [.crc, .crcw, .status, .ilen, .olen, .slaveId, .fcWrite, .fcRead, .wBase, .rBase, .wrLen]

theorem ofNumber_number (r : BlockRegister) : BlockRegister.ofNumber? r.number = some r := by
  cases r <;> rfl

end Sys2Proof

namespace Sys2Proof.Machine
open Sys2Proof.Safety

/-- CRCW as R171 writes it: the low byte of CRC times 2^8, plus the high byte. -/
theorem crcw_eq_ofNat (crc : Word) :
    crcw crc = BitVec.ofNat 16 (crc.toNat % 2 ^ 8 * 2 ^ 8 + crc.toNat / 2 ^ 8) := by
  have hlow : (lowByte crc).toNat = crc.toNat % 2 ^ 8 := by
    rw [lowByte, BitVec.extractLsb'_toNat, Nat.shiftRight_zero]
  have hhigh : (highByte crc).toNat = crc.toNat / 2 ^ 8 := by
    rw [highByte, BitVec.extractLsb'_toNat, Nat.shiftRight_eq_div_pow]
    exact Nat.mod_eq_of_lt (by omega)
  rw [crcw, ofBigEndian, hlow, hhigh]

/-! ## How the commands are answered -/

theorem exec_rd_number_answers (r : BlockRegister) (s : State) :
    Answers (exec (.rd r.number) s) s.crc s.status s.ibuf s.obuf
      (resp (readRegister Config.mfc r s) 0) := by
  rw [exec_rd, readCommand_of_defined (ofNumber_number r)]
  exact succeed_answers _ s

/-! ## No command but RST clears a STATUS bit -/

theorem and_latchError (e : ErrorCode) (status : Word) : status &&& latchError e status = status := by
  ext i hi
  rw [latchError, BitVec.getElem_and, BitVec.getElem_or]
  exact inf_sup_self

theorem CompletesFrom.status_and {s t : State} (h : CompletesFrom s (.next t)) :
    s.status &&& t.status = s.status := by
  rcases h.status with ⟨-, hsame⟩ | ⟨e, -, hlatched⟩
  · rw [hsame, BitVec.and_self]
  · rw [hlatched, and_latchError]

end Sys2Proof.Machine

namespace Sys2Proof.Proofs
open Sys2Proof.Machine Sys2Proof.Safety

/-- Settles O22: RST is a success on the state with the reset values, every other command completes
without clearing a STATUS bit, and the RST row matches one word only. -/
theorem rstCommand : Obligations.RstCommand := by
  refine ⟨fun s => ?_, fun i s t hi hexec => ?_, decode_rstWord, fun cw hcode hne => ?_⟩
  · rw [exec_rst]
    exact succeed_answers 0 (resetBlock s)
  · exact CompletesFrom.status_and (hexec ▸ exec_completes hi s)
  · have hop : opField cw = Opcode.rst.code := by
      apply BitVec.eq_of_toNat_eq
      rw [opField_toNat, hcode]
      rfl
    exact ⟨_, decode_rst_of_otherBits hop fun hcw => hne (congrArg BitVec.toNat hcw)⟩

/-- Settles O23: the listed pairs are the registers' numbers and values, and a number off the list names
no register. -/
theorem rdCommand : Obligations.RdCommand := by
  intro s reg
  rw [← encode_rd]
  refine ⟨fun v hv => ?_, fun hreg => ?_⟩
  · have hrow : (reg, v) ∈
        BlockRegister.rows.map fun r => (r.number, readRegister Config.mfc r s) := by
      rw [← crcw_eq_ofNat] at hv
      exact hv
    obtain ⟨r, -, hr⟩ := List.mem_map.mp hrow
    cases hr
    exact ⟨exec_rd_number_answers r s, decode_encode_rd_of_defined (ofNumber_number r)⟩
  · obtain ⟨hillegal, -⟩ := reservedRegistersAreIllegal s reg hreg
    exact ⟨hillegal, _, decode_rd_of_reserved (ofNumber_eq_none_of_reserved hreg)⟩

end Sys2Proof.Proofs
end

section
/-!
PROOF. The five errors (spec/60_exceptions.md R180 to R191): the cause of each, which the decoded word and
the buffers fix, and what a command does when there is a cause and when there is none.
-/

namespace Sys2Proof

/-! ## What a word decodes to, and when RSV is not zero -/

/-- RD is the one row with a check: it refuses a reserved register number (30_encoding.md R79). -/
theorem decodeRow_wellFormed {op : Opcode} {cw : CommandWord} {i : Instr}
    (h : decodeRow op cw = .ok i) : WellFormed i = true := by
  cases op with
  | rd =>
    cases hr : BlockRegister.ofNumber? (aField cw) with
    | none => simp [decodeRow, hr] at h
    | some r =>
      simp only [decodeRow, hr, Except.ok.injEq] at h
      subst h
      rw [WellFormed, ← ofNumber_isSome, hr, Option.isSome_some]
  | _ => cases h; rfl

theorem decode_wellFormed {cw : CommandWord} {i : Instr} (h : decode cw = .ok i) :
    WellFormed i = true := by
  cases hop : Opcode.ofCode? (opField cw) with
  | none => cases h.symm.trans (decode_of_reservedOpcode hop)
  | some op =>
    have hcode := (code_of_ofCode hop).symm
    by_cases hmask : cw &&& op.format.mask = op.matchWord
    · exact decodeRow_wellFormed ((decode_of_row hcode hmask).symm.trans h)
    · cases h.symm.trans (decode_of_reservedField hcode hmask)

theorem rsvField_ne_zero {cw : CommandWord} (h : 2 ^ 56 ≤ cw.toNat) : rsvField cw ≠ 0 := by
  intro hzero
  have hdiv : cw.toNat / 2 ^ 56 = 0 := by rw [← rsvField_toNat, hzero]; rfl
  omega

end Sys2Proof

namespace Sys2Proof.Machine
open Sys2Proof.Safety

/-! ## Causes -/

/-- The causes of the five errors (60_exceptions.md R184 to R188), for a decoded word and the state in
which it is presented. -/
inductive ErrorCause (s : State) : Except DecodeError Instr → ErrorCode → Prop
  | illegal (e : DecodeError) : ErrorCause s (.error e) .illegal
  | short (n : Word) (h : s.ibuf.length < readResponseLength n) : ErrorCause s (.ok (.decr n)) .short
  | overflow (b : Byte) (h : s.ibuf.length = 264) : ErrorCause s (.ok (.push b)) .overflow
  | empty (h : s.obuf.length = 0) : ErrorCause s (.ok .pop) .empty
  | rangeWrite (a f : Byte) (d n : Word)
      (h : 255 < s.ibuf.length ∨ 0xFFFF < d.toNat + 0x03E8) :
      ErrorCause s (.ok (.encw a f d n)) .range
  | rangeRead (a f : Byte) (d n : Word) (h : 0xFFFF < d.toNat + 0x07D0) :
      ErrorCause s (.ok (.encr a f d n)) .range

section Causes

variable {s : State} {d : Except DecodeError Instr}

theorem ErrorCause.unique {e e' : ErrorCode} (h : ErrorCause s d e) (h' : ErrorCause s d e') :
    e = e' := by
  cases h <;> cases h' <;> rfl

theorem errorCause_illegal_iff : ErrorCause s d .illegal ↔ ∃ e, d = .error e :=
  ⟨fun | .illegal e => ⟨e, rfl⟩, fun ⟨e, hd⟩ => hd ▸ .illegal e⟩

theorem errorCause_short_iff :
    ErrorCause s d .short ↔ ∃ n, d = .ok (.decr n) ∧ s.ibuf.length < readResponseLength n :=
  ⟨fun | .short n h => ⟨n, rfl, h⟩, fun ⟨n, hd, h⟩ => hd ▸ .short n h⟩

theorem errorCause_overflow_iff :
    ErrorCause s d .overflow ↔ ∃ b, d = .ok (.push b) ∧ s.ibuf.length = 264 :=
  ⟨fun | .overflow b h => ⟨b, rfl, h⟩, fun ⟨b, hd, h⟩ => hd ▸ .overflow b h⟩

theorem errorCause_empty_iff : ErrorCause s d .empty ↔ d = .ok .pop ∧ s.obuf.length = 0 :=
  ⟨fun | .empty h => ⟨rfl, h⟩, fun ⟨hd, h⟩ => hd ▸ .empty h⟩

theorem errorCause_range_iff :
    ErrorCause s d .range ↔
      (∃ a f addr n, d = .ok (.encw a f addr n) ∧
        (255 < s.ibuf.length ∨ 0xFFFF < addr.toNat + 0x03E8)) ∨
      (∃ a f addr n, d = .ok (.encr a f addr n) ∧ 0xFFFF < addr.toNat + 0x07D0) := by
  constructor
  · rintro (_ | _ | _ | _ | ⟨a, f, addr, n, h⟩ | ⟨a, f, addr, n, h⟩)
    · exact .inl ⟨a, f, addr, n, rfl, h⟩
    · exact .inr ⟨a, f, addr, n, rfl, h⟩
  · rintro (⟨a, f, addr, n, rfl, h⟩ | ⟨a, f, addr, n, rfl, h⟩)
    · exact .rangeWrite a f addr n h
    · exact .rangeRead a f addr n h

/-- After decoding, each command has at most one possible error code (R191), and E_ILLEGAL is never it. -/
theorem exists_only_errorCause (i : Instr) :
    ∃ e : ErrorCode, e ≠ .illegal ∧ ∀ s e', ErrorCause s (.ok i) e' → e' = e := by
  cases i with
  | decr n => exact ⟨.short, by decide, by rintro s _ ⟨⟩; rfl⟩
  | push b => exact ⟨.overflow, by decide, by rintro s _ ⟨⟩; rfl⟩
  | pop => exact ⟨.empty, by decide, by rintro s _ ⟨⟩; rfl⟩
  | _ => exact ⟨.range, by decide, by rintro s _ ⟨⟩ <;> rfl⟩

end Causes

/-! ## What a command does with and without a cause -/

/-- OBUF after a failure: a failing ENCW, ENCR or DECR empties it, no other failure does (R183). -/
def obufAfterError (d : Except DecodeError Instr) (obuf : List Byte) : List Byte :=
  match d with
  | .ok (.encw _ _ _ _) => []
  | .ok (.encr _ _ _ _) => []
  | .ok (.decr _) => []
  | _ => obuf

theorem obufAfterError_eq_or (d : Except DecodeError Instr) (obuf : List Byte) :
    obufAfterError d obuf = obuf ∨ obufAfterError d obuf = [] := by
  unfold obufAfterError
  split
  case h_4 => exact .inl rfl
  all_goals exact .inr rfl

/-- The completion of a word: a success where no error has a cause, and otherwise the error that has one,
raised with OBUF emptied or kept as R183 says. -/
inductive CompletesByCause (s : State) (d : Except DecodeError Instr) : Result → Prop
  | success (val : Word) (u : State) (hnone : ∀ e, ¬ ErrorCause s d e) :
      CompletesByCause s d (.next (succeed val u))
  | failure (e : ErrorCode) (hcause : ErrorCause s d e) :
      CompletesByCause s d (.next (raise e (s.setObuf (obufAfterError d s.obuf))))

theorem exec_completesByCause {i : Instr} (hwf : WellFormed i = true) (s : State) :
    CompletesByCause s (.ok i) (exec i s) := by
  cases i with
  | rd reg =>
    cases hr : BlockRegister.ofNumber? reg with
    | none => exact absurd (of_decide_eq_true hwf) ((ofNumber_eq_none_iff reg).mp hr)
    | some r => rw [exec_rd, readCommand_of_defined hr]; exact .success _ _ nofun
  | push data =>
    rw [exec_push]
    by_cases hfull : s.ibuf.length = Config.mfc.ibufCap
    · rw [pushByte_of_full data hfull]; exact .failure .overflow (.overflow data hfull)
    · rw [pushByte_of_room data hfull]
      exact .success _ _ fun | _, .overflow _ h => hfull h
  | pop =>
    cases ho : s.obuf with
    | nil =>
      rw [exec_pop_of_empty ho]
      exact .failure .empty (.empty (congrArg List.length ho))
    | cons b rest =>
      rw [exec_pop_of_cons ho]
      exact .success _ _ fun | _, .empty h => by simp [ho] at h
  | encw slave func addr count =>
    by_cases hfail : 255 < s.ibuf.length ∨ 0xFFFF < addr.toNat + 0x03E8
    · rw [exec_encw, writeRequestBody_eq_none hfail]
      exact .failure .range (.rangeWrite _ _ _ _ hfail)
    · obtain ⟨hlen, haddr⟩ := not_or.mp hfail
      obtain ⟨a, ha, -⟩ := exists_startAddress (base := Config.mfc.writeBase) (not_lt.mp haddr)
      rw [exec_encw_of_body (writeRequestBody_of_startAddress (not_lt.mp hlen) ha)]
      exact .success _ _ fun | _, .rangeWrite _ _ _ _ h => hfail h
  | encr slave func addr count =>
    by_cases hfail : 0xFFFF < addr.toNat + 0x07D0
    · rw [exec_encr, readRequestBody_eq_none hfail]
      exact .failure .range (.rangeRead _ _ _ _ hfail)
    · obtain ⟨a, ha, -⟩ := exists_startAddress (base := Config.mfc.readBase) (not_lt.mp hfail)
      rw [exec_encr_of_body (readRequestBody_of_startAddress ha)]
      exact .success _ _ fun | _, .rangeRead _ _ _ _ h => hfail h
  | decr count =>
    rcases lt_or_ge s.ibuf.length (readResponseLength count) with hlt | hge
    · rw [exec_decr_of_lt hlt]; exact .failure .short (.short count hlt)
    · rw [exec_decr_of_ge hge]
      exact .success _ _ fun | _, .short _ h => hge.not_gt h
  | rst | clri | clro | crci | crcu data | crcb => exact .success _ _ nofun

theorem step_completesByCause {s : State} {cw : CommandWord} {rest : List HostInput}
    (hin : s.inputs = .command cw :: rest) : CompletesByCause s (decode cw) (step s) := by
  cases hd : decode cw with
  | error e =>
    rw [step_of_command hin, execWord_of_illegal hd]
    exact .failure .illegal (.illegal e)
  | ok i =>
    rw [step_of_decode hin hd]
    exact exec_completesByCause (decode_wellFormed hd) s

/-! ## Response fields -/

theorem resp_injective {v v' : Word} {e e' : Byte} (h : resp v e = resp v' e') : v = v' ∧ e = e' := by
  have hval := congrArg respVal h
  have herr := congrArg respErr h
  simp only [respVal_resp, respErr_resp] at hval herr
  exact ⟨hval, herr⟩

theorem errorCode_code_injective {e e' : ErrorCode} (h : e.code = e'.code) : e = e' := by
  revert h; cases e <;> cases e' <;> decide

/-- The code returned for a word says which error has a cause, 0 that none has. -/
theorem CompletesByCause.exists_err {s : State} {d : Except DecodeError Instr} {o : Result}
    (h : CompletesByCause s d o) :
    ∃ (t : State) (val : Word) (err : Byte),
      o = .next t ∧ t.response = some (resp val err) ∧ err.toNat ≤ 5 ∧
      (∀ e : ErrorCode, err = e.code ↔ ErrorCause s d e) := by
  cases h with
  | success val u hnone =>
    exact ⟨_, val, 0, rfl, succeed_response u val, by decide, fun e =>
      iff_of_false (errorCode_code_ne_zero e).symm (hnone e)⟩
  | failure e hcause =>
    exact ⟨_, 0, e.code, rfl, raise_response _ e, errorCode_code_le e, fun e' =>
      ⟨fun h => errorCode_code_injective h ▸ hcause, fun h => congrArg _ (hcause.unique h)⟩⟩

/-- What a step that answers with a non-zero code leaves (R183). -/
theorem CompletesByCause.of_failing {s t : State} {d : Except DecodeError Instr} {val : Word}
    {err : Byte} (h : CompletesByCause s d (.next t)) (hresp : t.response = some (resp val err))
    (herr : err ≠ 0) :
    val = 0 ∧ t.crc = s.crc ∧ t.ibuf = s.ibuf ∧ t.status = s.status ||| 1#16 <<< (err.toNat - 1) ∧
      t.obuf = obufAfterError d s.obuf := by
  cases h with
  | success v u =>
    obtain ⟨-, h0⟩ := resp_injective (Option.some.inj hresp)
    exact absurd h0.symm herr
  | failure e =>
    obtain ⟨rfl, rfl⟩ := resp_injective (Option.some.inj hresp)
    exact ⟨rfl, rfl, rfl, rfl, rfl⟩

end Sys2Proof.Machine

namespace Sys2Proof.Proofs
open Sys2Proof.Machine Sys2Proof.Safety

/-- Settles O17: the step completes by cause, so the code names the error that has one, and what a
failure leaves follows from the code. -/
theorem errorCodesAndCauses : Obligations.ErrorCodesAndCauses := by
  intro s cw rest hin
  have hc := step_completesByCause hin
  obtain ⟨t, val, err, hstep, hresp, hle, hcode⟩ := hc.exists_err
  refine ⟨t, val, err, hstep, hresp, hle, (hcode .illegal).trans errorCause_illegal_iff,
    (hcode .short).trans errorCause_short_iff, (hcode .overflow).trans errorCause_overflow_iff,
    (hcode .empty).trans errorCause_empty_iff, (hcode .range).trans errorCause_range_iff,
    fun herr => ?_⟩
  obtain ⟨hval, hcrc, hibuf, hstatus, hobuf⟩ := (hstep ▸ hc).of_failing hresp herr
  exact ⟨hval, hstatus, hcrc, hibuf, hobuf ▸ obufAfterError_eq_or _ _⟩

/-- Settles O18: an answer with a non-zero code is a failure by cause, which leaves what R183 says. -/
theorem raiseChangesOnlyStatusAndObuf : Obligations.RaiseChangesOnlyStatusAndObuf := by
  intro s t cw rest val err hin hstep hresp herr
  exact (hstep ▸ step_completesByCause hin).of_failing hresp herr

/-- Settles O19: a word with a non-zero RSV does not decode, an illegal word is answered without a look at
the buffers, and a legal command has the one code its causes have. -/
theorem decodeErrorsComeFirst : Obligations.DecodeErrorsComeFirst := by
  refine ⟨fun s cw rest hin h => ?_, fun i hwf => ?_⟩
  · have hillegal : ∃ e, decode cw = .error e :=
      h.elim id fun ⟨_, hrsv⟩ => decode_illegal_of_rsv (rsvField_ne_zero hrsv)
    obtain ⟨e, hd⟩ := hillegal
    exact step_answersIllegal hin hd
  · obtain ⟨e, hne, honly⟩ := exists_only_errorCause i
    refine ⟨e, hne, fun s t hexec => ?_⟩
    have hc := hexec ▸ exec_completesByCause hwf s
    cases hc with
    | success val u => exact .inl (succeed_succeeded val u)
    | failure e' hcause => exact .inr (honly s e' hcause ▸ raise_response _ e')

/-- Settles O10: an illegal word is answered by raising E_ILLEGAL on the state itself. -/
theorem stepRaisesOnIllegalWord : Obligations.StepRaisesOnIllegalWord :=
  fun _ _ _ _ => step_answersIllegal

end Sys2Proof.Proofs
end

section
/-!
PROOF. Decoding and encoding are inverse to each other (spec/30_encoding.md R71, R72, R78 to R81): the
fields a format uses are copied both ways, and the mask test says that every other field is zero.
-/

namespace Sys2Proof

/-! ## Decoding the word of a command -/

theorem encode_matches_row : ∀ i : Instr, Laws.RowMatch.Statement i
  | .rst => Laws.RowMatch.rst
  | .rd reg => Laws.RowMatch.rd reg
  | .clri => Laws.RowMatch.clri
  | .push data => Laws.RowMatch.push data
  | .clro => Laws.RowMatch.clro
  | .pop => Laws.RowMatch.pop
  | .crci => Laws.RowMatch.crci
  | .crcu data => Laws.RowMatch.crcu data
  | .crcb => Laws.RowMatch.crcb
  | .encw slave func addr count => Laws.RowMatch.encw slave func addr count
  | .encr slave func addr count => Laws.RowMatch.encr slave func addr count
  | .decr count => Laws.RowMatch.decr count

theorem opField_encode (i : Instr) : opField (encode i) = (opcodeOf i).code := by
  obtain ⟨hop, -⟩ := (mask_test_iff (opcodeOf i) (encode i)).mp (encode_matches_row i)
  exact hop

theorem decodeRow_encode {i : Instr} (h : WellFormed i = true) :
    decodeRow (opcodeOf i) (encode i) = .ok i := by
  cases i with
  | rd reg =>
    obtain ⟨r, hr⟩ := Option.isSome_iff_exists.mp ((ofNumber_isSome reg).trans h)
    simp [opcodeOf, decodeRow, encode, hr]
  | push | crcu | encw | encr | decr => simp [opcodeOf, decodeRow, encode]
  | rst | clri | clro | pop | crci | crcb => rfl

theorem decode_encode {i : Instr} (h : WellFormed i = true) : decode (encode i) = .ok i :=
  (decode_of_row (opField_encode i) (encode_matches_row i)).trans (decodeRow_encode h)

theorem decode_of_encode_eq {cw : CommandWord} {i : Instr} (hwf : WellFormed i = true)
    (h : encode i = cw) : decode cw = .ok i := h ▸ decode_encode hwf

/-! ## Encoding what a word decodes to -/

/-- The word of a row with the fields its format uses taken from `cw`, every other field zero (R72). -/
def Opcode.wordWithFieldsOf (op : Opcode) (cw : CommandWord) : CommandWord :=
  assembleWord op.code (if op.format.usesA then aField cw else 0)
    (if op.format.usesFuncAddr then funcField cw else 0)
    (if op.format.usesFuncAddr then addrField cw else 0)
    (if op.format.usesCount then countField cw else 0) 0

theorem ite_field_eq {w : Nat} {used : Bool} {field : BitVec w} (h : used = false → field = 0) :
    (if used then field else 0) = field := by
  cases used with
  | false => exact (h rfl).symm
  | true => rfl

theorem wordWithFieldsOf_of_mask_test {op : Opcode} {cw : CommandWord}
    (h : cw &&& op.format.mask = op.matchWord) : op.wordWithFieldsOf cw = cw := by
  obtain ⟨hop, ha, hfunc, haddr, hcount, hrsv⟩ := (mask_test_iff op cw).mp h
  rw [Opcode.wordWithFieldsOf, ite_field_eq ha, ite_field_eq hfunc, ite_field_eq haddr,
    ite_field_eq hcount, ← hop, ← hrsv, assembleWord_fields]

theorem encode_of_decodeRow {op : Opcode} {cw : CommandWord} {i : Instr}
    (h : decodeRow op cw = .ok i) : encode i = op.wordWithFieldsOf cw := by
  cases op with
  | rd =>
    cases hr : BlockRegister.ofNumber? (aField cw) with
    | none => simp [decodeRow, hr] at h
    | some r =>
      simp only [decodeRow, hr, Except.ok.injEq] at h
      subst h
      rfl
  | _ => cases h; rfl

/-- A word that decodes matches a row, and that row gives its command. -/
theorem exists_row_of_decode {cw : CommandWord} {i : Instr} (h : decode cw = .ok i) :
    ∃ op : Opcode, cw &&& op.format.mask = op.matchWord ∧ decodeRow op cw = .ok i := by
  cases hop : Opcode.ofCode? (opField cw) with
  | none => cases h.symm.trans (decode_of_reservedOpcode hop)
  | some op =>
    have hcode := (code_of_ofCode hop).symm
    by_cases hmask : cw &&& op.format.mask = op.matchWord
    · exact ⟨op, hmask, (decode_of_row hcode hmask).symm.trans h⟩
    · cases h.symm.trans (decode_of_reservedField hcode hmask)

/-! ## The rows of the opcode table -/

theorem mem_specRows (op : Opcode) : (op.matchWord, op.format.mask) ∈ Safety.specRows := by
  cases op <;> decide

theorem code_injective {op op' : Opcode} (h : op.code = op'.code) : op = op' :=
  Option.some.inj ((ofCode_code op).symm.trans (h ▸ ofCode_code op'))

theorem eq_of_matches_both_rows {op op' : Opcode} {cw : CommandWord}
    (h : cw &&& op.format.mask = op.matchWord) (h' : cw &&& op'.format.mask = op'.matchWord) :
    op = op' := by
  obtain ⟨hop, -⟩ := (mask_test_iff op cw).mp h
  obtain ⟨hop', -⟩ := (mask_test_iff op' cw).mp h'
  exact code_injective (hop.symm.trans hop')

end Sys2Proof

namespace Sys2Proof.Proofs
open Sys2Proof.Safety

/-- Settles O3: the word of a command matches the command's row, and the row reads its fields back. -/
theorem decodeOfEncode : Obligations.DecodeOfEncode := fun _ => decode_encode

/-- Settles O4: the word matches the row it decodes by, so it is that row's opcode with the fields the
command was read from. -/
theorem encodeOfDecode : Obligations.EncodeOfDecode := by
  intro cw i h
  obtain ⟨op, hmask, hrow⟩ := exists_row_of_decode h
  exact ⟨decode_wellFormed h, (encode_of_decodeRow hrow).trans (wordWithFieldsOf_of_mask_test hmask)⟩

/-- Settles O5: a row that a word matches has the word's opcode, and a word that decodes matches a row. -/
theorem wordsMatchAtMostOneRow : Obligations.WordsMatchAtMostOneRow := by
  refine fun cw => ⟨fun r₁ hr₁ r₂ hr₂ h₁ h₂ => ?_, fun hnone => ?_⟩
  · obtain ⟨op₁, rfl⟩ := exists_opcode_of_mem_specRows hr₁
    obtain ⟨op₂, rfl⟩ := exists_opcode_of_mem_specRows hr₂
    rw [eq_of_matches_both_rows h₁ h₂]
  · cases hd : decode cw with
    | error e => exact ⟨e, rfl⟩
    | ok i =>
      obtain ⟨op, hmask, -⟩ := exists_row_of_decode hd
      exact absurd hmask (hnone _ (mem_specRows op))

/-- Settles O2: each word is the encoding of its command. -/
theorem decodeSpecifiedWords : Obligations.DecodeSpecifiedWords :=
  ⟨decode_rstWord, decode_of_encode_eq (by decide) (by decide),
    decode_of_encode_eq rfl (by decide), decode_of_encode_eq rfl (by decide),
    decode_of_encode_eq rfl (by decide), decode_of_encode_eq rfl (by decide),
    decode_of_encode_eq rfl (by decide)⟩

end Sys2Proof.Proofs
end

section
/-!
PROOF. Every step answers a next state, uses up one input and keeps the invariant (spec/10_state.md R35,
spec/30_encoding.md R73, spec/70_reset_and_hazards.md R231).
-/

namespace Sys2Proof.Machine
open Sys2Proof.Safety

theorem step_of_idle {s : State} (h : s.inputs = []) : step s = .next s := by
  rw [step, takeInput, h]

theorem hardwareReset_eq (s : State) :
    hardwareReset s = { State.reset with inputs := s.inputs.tail } := rfl

/-! ## A command uses up the word it was presented as -/

theorem CompletesFrom.exists_next {s : State} {o : Result} (h : CompletesFrom s o) :
    ∃ t, o = .next t := by
  cases h <;> exact ⟨_, rfl⟩

theorem CompletesFrom.inputs {s t : State} (h : CompletesFrom s (.next t)) :
    t.inputs = s.inputs.tail := by
  cases h with
  | success val u _ hinputs => rw [succeed_inputs, hinputs]
  | error e => exact raise_inputs s e
  | errorEmptyingObuf e => exact raiseEmptyingObuf_inputs s e

theorem exec_uses_one_input (i : Instr) (s : State) :
    ∃ t, exec i s = .next t ∧ t.inputs = s.inputs.tail := by
  by_cases hrst : i = .rst
  · exact ⟨_, hrst ▸ exec_rst s, rfl⟩
  · have hc := exec_completes hrst s
    obtain ⟨t, ht⟩ := hc.exists_next
    exact ⟨t, ht, (ht ▸ hc).inputs⟩

/-! ## Each part of the invariant -/

theorem exec_memory_wf (i : Instr) {s : State} (h : Memory.wf s) :
    ∃ t, exec i s = .next t ∧ Memory.wf t := by
  cases i with
  | rst => exact ⟨_, exec_rst s, succeed_fits 0 resetBlock_fits⟩
  | rd reg => exact ⟨_, exec_rd reg s, readCommand_fits reg h⟩
  | clri => exact ⟨_, exec_clri s, succeed_fits 0 (clearIbuf_fits h)⟩
  | push data => exact ⟨_, exec_push data s, pushByte_fits data h⟩
  | clro => exact ⟨_, exec_clro s, succeed_fits 0 (setObuf_fits (Nat.zero_le _) h)⟩
  | pop =>
    cases ho : s.obuf with
    | nil => exact ⟨_, exec_pop_of_empty ho, raise_fits .empty h⟩
    | cons b rest => exact ⟨_, exec_pop_of_cons ho, succeed_fits _ (dropFirst_fits ho h)⟩
  | encw slave func addr count =>
    exact ⟨_, exec_encw slave func addr count s,
      encodeWrite_fits (cfg := Config.mfc) le_rfl slave func addr count h⟩
  | encr slave func addr count =>
    exact ⟨_, exec_encr slave func addr count s,
      encodeRead_fits (cfg := Config.mfc) le_rfl slave func addr count h⟩
  | decr count =>
    cases hp : decodeReadResponse s.ibuf count with
    | none => exact ⟨_, exec_decr_of_short hp, raiseEmptyingObuf_fits .short h⟩
    | some payload =>
      exact ⟨_, exec_decr_of_payload hp, succeed_fits _ (setPayload_fits (by decide) hp h)⟩
  | crci | crcu data | crcb => exact ⟨_, rfl, succeed_fits _ (setCrc_fits _ h)⟩

theorem latchError_ushiftRight_five (e : ErrorCode) {status : Word} (h : status >>> 5 = 0) :
    latchError e status >>> 5 = 0 := by
  have hbit : e.statusBit >>> 5 = 0 := by cases e <;> decide
  rw [latchError, BitVec.ushiftRight_or_distrib, h, hbit, BitVec.or_self]

theorem legalResponse_success (val : Word) : LegalResponse (resp val 0) :=
  ⟨respZero_resp val 0, by rw [respErr_resp]; decide, fun h => absurd (respErr_resp val 0) h⟩

theorem legalResponse_error (e : ErrorCode) : LegalResponse (resp 0 e.code) :=
  ⟨respZero_resp 0 e.code, by rw [respErr_resp]; exact errorCode_code_le e,
    fun _ => respVal_resp 0 e.code⟩

theorem inv_of_answered {t : State} (hmem : Memory.wf t) (hstatus : t.status >>> 5 = 0)
    {r : ResponseWord} (hresp : t.response = some r) (hlegal : LegalResponse r) : Inv t :=
  ⟨hmem, hstatus, fun _ h => Option.some.inj (hresp.symm.trans h) ▸ hlegal⟩

theorem CompletesFrom.inv {s t : State} (h : CompletesFrom s (.next t)) (hs : s.status >>> 5 = 0)
    (hmem : Memory.wf t) : Inv t := by
  rcases h.status with ⟨⟨val, hresp⟩, hstatus⟩ | ⟨e, hresp, hstatus⟩
  · exact inv_of_answered hmem (hstatus ▸ hs) hresp (legalResponse_success val)
  · exact inv_of_answered hmem (hstatus ▸ latchError_ushiftRight_five e hs) hresp
      (legalResponse_error e)

/-! ## Reset, and every step -/

theorem inv_reset : Inv State.reset := ⟨reset_memory_wf, by decide, nofun⟩

/-- The invariant says nothing of what the host presents. -/
theorem inv_hardwareReset (s : State) : Inv (hardwareReset s) := inv_reset

theorem exec_keeps_inv (i : Instr) {s : State} (h : Inv s) :
    ∃ t, exec i s = .next t ∧ Inv t ∧ t.inputs = s.inputs.tail := by
  obtain ⟨hmem, hstatus, -⟩ := h
  obtain ⟨t, hexec, hmem'⟩ := exec_memory_wf i hmem
  by_cases hrst : i = .rst
  · subst hrst
    cases hexec
    exact ⟨_, exec_rst s, inv_of_answered hmem' (by simp) rfl (legalResponse_success 0), rfl⟩
  · have hc : CompletesFrom s (.next t) := hexec ▸ exec_completes hrst s
    exact ⟨t, hexec, hc.inv hstatus hmem', hc.inputs⟩

theorem step_keeps_inv {s : State} (h : Inv s) :
    ∃ t, step s = .next t ∧ Inv t ∧ t.inputs = s.inputs.tail := by
  cases hin : s.inputs with
  | nil => exact ⟨s, step_of_idle hin, h, hin⟩
  | cons input rest =>
    rw [← hin]
    cases input with
    | hardwareReset => exact ⟨_, step_of_hardwareReset hin, inv_hardwareReset s, rfl⟩
    | command cw =>
      cases hd : decode cw with
      | ok i =>
        rw [step_of_decode hin hd]
        exact exec_keeps_inv i h
      | error e =>
        obtain ⟨hmem, hstatus, -⟩ := h
        have hc : CompletesFrom s (.next (raise .illegal s)) := .error .illegal
        exact ⟨_, (step_of_command hin).trans (execWord_of_illegal hd s),
          hc.inv hstatus (raise_fits .illegal hmem), hc.inputs⟩

end Sys2Proof.Machine

namespace Sys2Proof.Proofs
open Sys2Proof.Machine Sys2Proof.Safety

/-- Settles O14: `step_keeps_inv`, for a hardware reset, an illegal word, each command and an idle
step. -/
theorem stepKeepsInvariant : Obligations.StepKeepsInvariant := by
  intro s h
  obtain ⟨t, hstep, hinv, -⟩ := step_keeps_inv h
  exact ⟨t, hstep, hinv⟩

/-- Settles O15, by induction on the number of steps. -/
theorem everyInputSequenceIsAnswered : Obligations.EveryInputSequenceIsAnswered := by
  intro k
  induction k with
  | zero => exact fun s h => ⟨s, rfl, h, rfl⟩
  | succ k ih =>
    intro s h
    obtain ⟨u, hstep, hu, huIn⟩ := step_keeps_inv h
    obtain ⟨t, hrun, ht, htIn⟩ := ih u hu
    exact ⟨t, (run_succ_of_step hstep k).trans hrun, ht, by rw [htIn, huIn, List.drop_tail]⟩

/-- Settles O9: a decoded word is executed, and every command uses up the word it was presented as. -/
theorem stepRunsDecodedInstruction : Obligations.StepRunsDecodedInstruction := by
  intro s cw rest i hin hd
  obtain ⟨t, hexec, htIn⟩ := exec_uses_one_input i s
  exact ⟨step_of_decode hin hd, t, hexec, by rw [htIn, hin, List.tail_cons]⟩

/-- Settles O11: a hardware reset leaves the reset state but for the host's later inputs. -/
theorem resetStepAndIdleStep : Obligations.ResetStepAndIdleStep := by
  refine fun s => ⟨fun rest hin => ?_, step_of_idle⟩
  rw [step_of_hardwareReset hin, hardwareReset_eq, hin, List.tail_cons]

/-- Settles O13: the buffers are empty, STATUS is 0 and no response has been returned. -/
theorem resetMeetsInvariant : Obligations.ResetMeetsInvariant := inv_reset

end Sys2Proof.Proofs
end

section
/-!
PROOF. The frame of every command (spec/10_state.md R22, R25 to R27), and the single steps of RD CRCW,
POP and CRCU (R23, spec/43_buffers.md R163, spec/40_crc.md R117).
-/

namespace Sys2Proof

theorem encode_crcu (data : Byte) :
    encode (.crcu data) = BitVec.ofNat 64 (0x21 + data.toNat * 2 ^ 8) := by
  simp [encode, assembleWord]

end Sys2Proof

namespace Sys2Proof.Machine
open Sys2Proof.Safety

theorem exec_crcu (data : Byte) (s : State) :
    exec (.crcu data) s = .next (writeCrc (crcStep s.crc data) s) := rfl

/-! ## Who may change what -/

/-- The rows whose commands may change CRC (R22). -/
def crcWriters : List Opcode := [.rst, .crci, .crcu, .crcb, .encw, .encr]

/-- The rows whose commands may change IBUF (R26). -/
def ibufWriters : List Opcode := [.rst, .clri, .push]

/-- The rows whose commands may change OBUF (R27). -/
def obufWriters : List Opcode := [.rst, .clro, .pop, .encw, .encr, .decr]

/-- What a command of row `op` that leads from `s` to `t` may have changed. -/
def WithinFrame (op : Opcode) (s t : State) : Prop :=
  (t.crc ≠ s.crc → op ∈ crcWriters ∧ Succeeded t) ∧
  (t.ibuf ≠ s.ibuf → op ∈ ibufWriters ∧ Succeeded t) ∧
  (t.obuf ≠ s.obuf → op ∈ obufWriters) ∧
  (t.status ≠ s.status → op = .rst ∨ ∃ e, FailedWith e t)

section Frames

variable {op : Opcode} {s : State}

/-- A success changes what the state it is reported on differs in. -/
theorem succeed_withinFrame {u : State} (val : Word) (hcrc : u.crc ≠ s.crc → op ∈ crcWriters)
    (hibuf : u.ibuf ≠ s.ibuf → op ∈ ibufWriters) (hobuf : u.obuf ≠ s.obuf → op ∈ obufWriters)
    (hstatus : u.status ≠ s.status → op = .rst) : WithinFrame op s (succeed val u) :=
  ⟨fun h => ⟨hcrc h, succeed_succeeded val u⟩, fun h => ⟨hibuf h, succeed_succeeded val u⟩,
    hobuf, fun h => .inl (hstatus h)⟩

theorem succeed_self_withinFrame (val : Word) : WithinFrame op s (succeed val s) :=
  succeed_withinFrame val (absurd rfl) (absurd rfl) (absurd rfl) (absurd rfl)

theorem writeCrc_withinFrame (hop : op ∈ crcWriters) (v : Word) :
    WithinFrame op s (writeCrc v s) :=
  succeed_withinFrame v (fun _ => hop) (absurd rfl) (absurd rfl) (absurd rfl)

theorem setIbuf_withinFrame (hop : op ∈ ibufWriters) (val : Word) (bytes : List Byte) :
    WithinFrame op s (succeed val (s.setIbuf bytes)) :=
  succeed_withinFrame val (absurd rfl) (fun _ => hop) (absurd rfl) (absurd rfl)

theorem setObuf_withinFrame (hop : op ∈ obufWriters) (val : Word) (bytes : List Byte) :
    WithinFrame op s (succeed val (s.setObuf bytes)) :=
  succeed_withinFrame val (absurd rfl) (absurd rfl) (fun _ => hop) (absurd rfl)

/-- An error changes STATUS, and OBUF where it empties it (60_exceptions.md R183). -/
theorem raise_withinFrame (e : ErrorCode) : WithinFrame op s (raise e s) :=
  ⟨absurd rfl, absurd rfl, absurd rfl, fun _ => .inr ⟨e, raise_response s e⟩⟩

theorem raiseEmptyingObuf_withinFrame (hop : op ∈ obufWriters) (e : ErrorCode) :
    WithinFrame op s (raiseEmptyingObuf e s) :=
  ⟨absurd rfl, absurd rfl, fun _ => hop, fun _ => .inr ⟨e, raiseEmptyingObuf_failedWith e s⟩⟩

theorem emitFrame_withinFrame (hcrc : op ∈ crcWriters) (hobuf : op ∈ obufWriters)
    (body : Option (List Byte)) : WithinFrame op s (emitFrame body s) := by
  cases body with
  | none => exact raiseEmptyingObuf_withinFrame hobuf .range
  | some bytes =>
    exact succeed_withinFrame _ (fun _ => hcrc) (absurd rfl) (fun _ => hobuf) (absurd rfl)

end Frames

theorem exec_withinFrame (i : Instr) (s : State) :
    ∃ t, exec i s = .next t ∧ WithinFrame (opcodeOf i) s t := by
  cases i with
  | rst =>
    exact ⟨_, exec_rst s, succeed_withinFrame 0 (fun _ => by decide) (fun _ => by decide)
      (fun _ => by decide) (fun _ => rfl)⟩
  | rd reg =>
    refine ⟨_, exec_rd reg s, ?_⟩
    cases hr : BlockRegister.ofNumber? reg with
    | none => rw [readCommand_of_reserved hr]; exact raise_withinFrame .illegal
    | some r => rw [readCommand_of_defined hr]; exact succeed_self_withinFrame _
  | clri => exact ⟨_, exec_clri s, setIbuf_withinFrame (by decide) 0 []⟩
  | push data =>
    refine ⟨_, exec_push data s, ?_⟩
    by_cases hfull : s.ibuf.length = Config.mfc.ibufCap
    · rw [pushByte_of_full data hfull]; exact raise_withinFrame .overflow
    · rw [pushByte_of_room data hfull]
      exact setIbuf_withinFrame (by decide : Opcode.push ∈ ibufWriters) _ _
  | clro => exact ⟨_, exec_clro s, setObuf_withinFrame (by decide) 0 []⟩
  | pop =>
    cases ho : s.obuf with
    | nil => exact ⟨_, exec_pop_of_empty ho, raise_withinFrame .empty⟩
    | cons b rest => exact ⟨_, exec_pop_of_cons ho, setObuf_withinFrame (by decide) _ rest⟩
  | crci => exact ⟨_, exec_crci s, writeCrc_withinFrame (by decide) _⟩
  | crcu data =>
    exact ⟨_, exec_crcu data s, writeCrc_withinFrame (by decide : Opcode.crcu ∈ crcWriters) _⟩
  | crcb => exact ⟨_, exec_crcb s, writeCrc_withinFrame (by decide) _⟩
  | encw slave func addr count =>
    exact ⟨_, exec_encw slave func addr count s,
      emitFrame_withinFrame (by decide : Opcode.encw ∈ crcWriters) (by decide) _⟩
  | encr slave func addr count =>
    exact ⟨_, exec_encr slave func addr count s,
      emitFrame_withinFrame (by decide : Opcode.encr ∈ crcWriters) (by decide) _⟩
  | decr count =>
    have hop : Opcode.decr ∈ obufWriters := by decide
    cases hp : decodeReadResponse s.ibuf count with
    | none => exact ⟨_, exec_decr_of_short hp, raiseEmptyingObuf_withinFrame hop .short⟩
    | some payload => exact ⟨_, exec_decr_of_payload hp, setObuf_withinFrame hop _ payload⟩

end Sys2Proof.Machine

namespace Sys2Proof.Proofs
open Sys2Proof.Machine

/-- Settles O21: `exec_withinFrame` gives the frame of the state each command leads to. -/
theorem commandsLeaveTheRestAlone : Obligations.CommandsLeaveTheRestAlone := by
  intro i s t hexec
  obtain ⟨u, hu, hframe⟩ := exec_withinFrame i s
  cases hexec.symm.trans hu
  exact hframe

/-- Settles O24: RD CRCW answers the view, which is the two wire bytes read big-endian. -/
theorem crcwIsWireOrder : Obligations.CrcwIsWireOrder := by
  refine fun s => ⟨lowByte s.crc, highByte s.crc, rfl, exec_rd_number_answers .crcw s, fun h => ?_⟩
  rw [h]
  decide

/-- Settles O28: the word selects the POP row, and whether OBUF is empty selects the outcome. -/
theorem popCommand : Obligations.PopCommand := by
  refine ⟨decode_popWord, fun s => ⟨fun ho => ?_, fun b rest ho => ?_⟩⟩
  · rw [exec_pop_of_empty ho, ← ho]
    exact raise_answers .empty s
  · rw [exec_pop_of_cons ho]
    exact succeed_answers _ (s.setObuf rest)

/-- Settles O34: the word is the encoding of CRCU, and CRCU is a CRC write of the byte step. -/
theorem crcuCommand : Obligations.CrcuCommand := by
  intro data s
  rw [exec_crcu]
  exact ⟨decode_of_encode_eq rfl (encode_crcu data), writeCrc_answers (crcStep s.crc data) s⟩

end Sys2Proof.Proofs
end

section
/-!
PROOF. The byte step as a linear map (spec/40_crc.md R111): one pass distributes over XOR and takes only
0 to 0, so eight passes are injective. From this the table form (R114), the residue (R115), and the
frames that check themselves (spec/30_encoding.md R89).
-/

namespace Sys2Proof.Machine

/-! ## One pass and `n` passes -/

/-- The polynomial where the bit shifted out is 1. -/
def polyIf (bit : Bool) : Word := if bit then crcPoly else 0

theorem polyIf_xor (a b : Bool) : polyIf (a ^^ b) = polyIf a ^^^ polyIf b := by
  cases a <;> cases b <;> decide

theorem crcShift_eq (c : Word) : crcShift c = c >>> 1 ^^^ polyIf (c.getLsbD 0) := by
  unfold crcShift polyIf
  split
  · rfl
  · exact BitVec.xor_zero.symm

theorem crcShift_xor (c d : Word) : crcShift (c ^^^ d) = crcShift c ^^^ crcShift d := by
  simp only [crcShift_eq, BitVec.getLsbD_xor, BitVec.ushiftRight_xor_distrib, polyIf_xor]
  ac_rfl

theorem crcShifts_xor (n : Nat) (c d : Word) :
    crcShifts n (c ^^^ d) = crcShifts n c ^^^ crcShifts n d := by
  induction n generalizing c d with
  | zero => rfl
  | succ n ih => rw [crcShifts, crcShift_xor, ih]; rfl

/-- A pass that adds the polynomial leaves bit 15 set, so a pass with result 0 is a shift of an even
value. -/
theorem crcShift_eq_zero {c : Word} (h : crcShift c = 0) : c = 0 := by
  have hlow : c.getLsbD 0 = false := by
    have htop := congrArg (BitVec.getLsbD · 15) h
    cases hbit : c.getLsbD 0 with
    | false => rfl
    | true => simp [crcShift_eq, hbit, polyIf, crcPoly] at htop
  have hshift : c >>> 1 = 0 := by
    rw [crcShift_eq, hlow] at h
    exact BitVec.xor_zero.symm.trans h
  apply BitVec.eq_of_toNat_eq
  have heven : c.toNat % 2 = 0 := by simpa [BitVec.getLsbD, Nat.testBit_zero] using hlow
  have hhalf : c.toNat / 2 = 0 := by
    simpa [Nat.shiftRight_eq_div_pow] using congrArg BitVec.toNat hshift
  change _ = 0
  omega

theorem crcShifts_eq_zero {n : Nat} {c : Word} (h : crcShifts n c = 0) : c = 0 := by
  induction n generalizing c with
  | zero => exact h
  | succ n ih => exact crcShift_eq_zero (ih h)

theorem crcShifts_inj {n : Nat} {c d : Word} : crcShifts n c = crcShifts n d ↔ c = d := by
  refine ⟨fun h => ?_, congrArg _⟩
  have hzero : crcShifts n (c ^^^ d) = 0 := by rw [crcShifts_xor, h, BitVec.xor_self]; rfl
  exact BitVec.xor_eq_zero_iff.mp (crcShifts_eq_zero hzero)

/-- Passes that shift out zeros only are a shift. -/
theorem crcShifts_eq_ushiftRight {n : Nat} {c : Word} (h : ∀ i < n, c.getLsbD i = false) :
    crcShifts n c = c >>> n := by
  induction n generalizing c with
  | zero => exact (BitVec.ushiftRight_zero c).symm
  | succ n ih =>
    have hpass : crcShift c = c >>> 1 := if_neg (Bool.eq_false_iff.mp (h 0 n.succ_pos))
    have hrest : ∀ i < n, (c >>> 1).getLsbD i = false := fun i hi => by
      rw [BitVec.getLsbD_ushiftRight]
      exact h (1 + i) (by omega)
    rw [crcShifts, hpass, ih hrest, ← BitVec.shiftRight_add, Nat.add_comm]

/-! ## A 16-bit value and its two bytes -/

/-- The value whose wire bytes, low byte first, are `x` and `y` (20_memory.md R55). -/
def ofLowByteFirst (x y : Byte) : Word := x.setWidth 16 ^^^ y.setWidth 16 <<< 8

theorem lowByte_ofLowByteFirst (x y : Byte) : lowByte (ofLowByteFirst x y) = x := by
  ext i hi
  simp [lowByte, ofLowByteFirst, hi, show i < 16 by omega]

theorem highByte_ofLowByteFirst (x y : Byte) : highByte (ofLowByteFirst x y) = y := by
  ext i hi
  simp [highByte, ofLowByteFirst, hi, show 8 + i < 16 by omega]

theorem ofLowByteFirst_bytes (c : Word) : ofLowByteFirst (lowByte c) (highByte c) = c := by
  ext i hi
  rcases lt_or_ge i 8 with h | h
  · simp [lowByte, ofLowByteFirst, h, hi]
  · simp [highByte, lowByte, ofLowByteFirst, hi, h.not_gt, show i - 8 < 8 by omega,
      Nat.add_sub_of_le h]

theorem ushiftRight_eight (c : Word) : c >>> 8 = (highByte c).setWidth 16 := by
  ext i hi
  simp only [highByte, BitVec.getElem_ushiftRight, BitVec.getElem_setWidth,
    BitVec.getLsbD_extractLsb']
  rcases lt_or_ge i 8 with h | h
  · simp [h]
  · simp [h.not_gt, show 16 ≤ 8 + i by omega]

theorem ofLowByteFirst_eq_iff (c : Word) (x y : Byte) :
    ofLowByteFirst x y = c ↔ [x, y] = lowByteFirst c := by
  constructor
  · rintro rfl
    rw [lowByteFirst, lowByte_ofLowByteFirst, highByte_ofLowByteFirst]
  · intro h
    obtain ⟨rfl, rfl⟩ : x = lowByte c ∧ y = highByte c := by simpa [lowByteFirst] using h
    exact ofLowByteFirst_bytes c

/-! ## The byte step -/

/-- Eight passes over a value whose low byte is 0 move its high byte down. -/
theorem crcShifts_highByte (y : Byte) : crcShifts 8 (y.setWidth 16 <<< 8) = y.setWidth 16 := by
  have hhigh : y.setWidth 16 <<< 8 = ofLowByteFirst 0 y := BitVec.zero_xor.symm
  rw [crcShifts_eq_ushiftRight fun i hi => by simp [hi], ushiftRight_eight, hhigh,
    highByte_ofLowByteFirst]

/-- Entry `i` of the printed table is what eight passes make of `i`. -/
theorem crcTable_getD (i : Byte) : crcTable.getD i.toNat 0 = crcShifts 8 (i.setWidth 16) := by
  revert i; decide +kernel

theorem crcStepByTable_eq (c : Word) (b : Byte) : crcStepByTable c b = crcStep c b := by
  have hbyte : b.setWidth 16 >>> 8 = (0 : Word) := by
    ext i hi
    simp
  have hhigh : c >>> 8 = (highByte (c ^^^ b.setWidth 16)).setWidth 16 := by
    rw [← ushiftRight_eight, BitVec.ushiftRight_xor_distrib, hbyte]
    exact BitVec.xor_zero.symm
  rw [crcStepByTable, crcTable_getD, hhigh, ← crcShifts_highByte, ← crcShifts_xor, crcStep,
    BitVec.xor_comm]
  exact congrArg (crcShifts 8) (ofLowByteFirst_bytes _)

theorem crcStep_eq_zero_iff (c : Word) (y : Byte) : crcStep c y = 0 ↔ c = y.setWidth 16 := by
  have hzero : crcShifts 8 0 = 0 := by decide
  rw [crcStep, ← hzero, crcShifts_inj]
  exact BitVec.xor_eq_zero_iff

/-- Two byte steps end at 0 exactly when the bytes are the CRC before them, low byte first. -/
theorem crcStep_crcStep_eq_zero_iff (c : Word) (x y : Byte) :
    crcStep (crcStep c x) y = 0 ↔ [x, y] = lowByteFirst c := by
  calc crcStep (crcStep c x) y = 0
      ↔ crcShifts 8 (c ^^^ x.setWidth 16) = y.setWidth 16 := crcStep_eq_zero_iff _ y
    _ ↔ c ^^^ x.setWidth 16 = y.setWidth 16 <<< 8 := by
        rw [← crcShifts_inj (n := 8) (d := y.setWidth 16 <<< 8), crcShifts_highByte]
    _ ↔ c ^^^ x.setWidth 16 ^^^ y.setWidth 16 <<< 8 = 0 := BitVec.xor_eq_zero_iff.symm
    _ ↔ ofLowByteFirst x y ^^^ c = 0 := by rw [BitVec.xor_assoc, BitVec.xor_comm c, ofLowByteFirst]
    _ ↔ ofLowByteFirst x y = c := BitVec.xor_eq_zero_iff
    _ ↔ [x, y] = lowByteFirst c := ofLowByteFirst_eq_iff c x y

theorem crc16_append (bytes bytes' : List Byte) :
    crc16 (bytes ++ bytes') = crcFold (crc16 bytes) bytes' := List.foldl_append

theorem crc16_append_pair_eq_zero_iff (bytes : List Byte) (x y : Byte) :
    crc16 (bytes ++ [x, y]) = 0 ↔ [x, y] = lowByteFirst (crc16 bytes) := by
  rw [crc16_append, crcFold_cons, crcFold_cons, crcFold_nil, crcStep_crcStep_eq_zero_iff]

theorem crc16_sealFrame (body : List Byte) : crc16 (sealFrame body) = 0 :=
  (crc16_append_pair_eq_zero_iff body _ _).mpr rfl

end Sys2Proof.Machine

namespace Sys2Proof.Proofs
open Sys2Proof.Machine

/-- Settles O31: the table looks the low byte's eight passes up, and those of the high byte are a
shift. -/
theorem tableFormEqualsByteStep : Obligations.TableFormEqualsByteStep := crcStepByTable_eq

/-- Settles O32: eight passes are injective, so the last step ends at 0 for one byte only, and so does
the step before it. -/
theorem residueIsZeroExactlyWhenChecksumFits :
    Obligations.ResidueIsZeroExactlyWhenChecksumFits := crc16_append_pair_eq_zero_iff

/-- Settles O43: a succeeding encode command has a body, and its sealed frame has residue 0. -/
theorem builtFramesCheckThemselves : Obligations.BuiltFramesCheckThemselves := by
  intro i s t hop hexec hok
  obtain ⟨body, hbody⟩ := exec_encode_eq_emitFrame hop s
  cases hexec.symm.trans hbody
  cases body with
  | none => exact absurd hok (not_succeeded_of_failedWith (emitFrame_none_failedWith s))
  | some bytes =>
    have hcrc : crc16 bytes = crc16 ((sealFrame bytes).take ((sealFrame bytes).length - 2)) := by
      rw [sealFrame_length, Nat.add_sub_cancel, sealFrame_take_of_length rfl]
    exact ⟨hcrc, (sealFrame_drop_checksum bytes).trans (congrArg lowByteFirst hcrc.symm),
      crc16_sealFrame bytes⟩

end Sys2Proof.Proofs
end

section
/-!
PROOF. What DECR reads of IBUF (spec/42_frame_decode.md R152 to R154), and what the commands do straight
after reset (spec/70_reset_and_hazards.md R213).
-/

namespace Sys2Proof.Machine
open Sys2Proof.Safety

/-! ## The payload DECR takes -/

theorem responsePayload_of_frame {p : List Byte} {count : Word} (sl f k x y : Byte)
    (h : p.length = 2 * count.toNat) :
    responsePayload ([sl, f, k] ++ p ++ [x, y]) count = p := by
  rw [responsePayload, List.append_assoc]
  exact List.take_left' h

/-- No byte but those of the payload is examined (R153). -/
theorem responsePayload_congr {bytes bytes' : List Byte} {count : Word}
    (h : ∀ k, 3 ≤ k → k < 3 + 2 * count.toNat → bytes'[k]? = bytes[k]?) :
    responsePayload bytes' count = responsePayload bytes count := by
  apply List.ext_getElem?
  intro k
  simp only [responsePayload, List.getElem?_take, List.getElem?_drop]
  split
  · exact h (3 + k) (by omega) (by omega)
  · rfl

/-! ## Frames built with an empty IBUF -/

theorem crc16_writeRequest_after_reset :
    crc16 [0x09, 0x10, 0x03, 0xE8, 0x00, 0x00, 0x00] = 0x30F1 := by decide +kernel

theorem crc16_readRequest_after_reset :
    crc16 [0x09, 0x03, 0x07, 0xD0, 0x00, 0x01] = 0xCF85 := by decide +kernel

theorem emitFrame_answers_of_crc16 {body : List Byte} {v : Word} (h : crc16 body = v) (s : State) :
    Answers (.next (emitFrame (some body) s)) v s.status s.ibuf (body ++ [lowByte v, highByte v])
      (resp (BitVec.ofNat 16 (body.length + 2)) 0) := by
  have hanswer := emitFrame_some_answers body s
  rwa [h, lengthWord, sealFrame_length, sealFrame_eq_of_crc16_eq h] at hanswer

end Sys2Proof.Machine

namespace Sys2Proof.Proofs
open Sys2Proof.Machine

/-- Settles O50: IBUF has the length DECR needs, and its payload is what stands after the header. -/
theorem decrReturnsPayloadUnchanged : Obligations.DecrReturnsPayloadUnchanged := by
  intro sl f k x y p n s hp hibuf
  have hge : readResponseLength n ≤ s.ibuf.length := by
    rw [hibuf, List.length_append, List.length_append, hp]
    exact le_rfl
  rw [exec_decr_of_ge hge, hibuf, responsePayload_of_frame sl f k x y hp, ← hibuf]
  exact succeed_answers _ (s.setObuf p)

/-- Settles O51: the lengths select the same outcome, and the payloads are equal. -/
theorem decrDoesNotValidate : Obligations.DecrDoesNotValidate := by
  intro n s s' hlen hbytes
  rcases lt_or_ge s.ibuf.length (readResponseLength n) with hlt | hge
  · exact ⟨_, _, exec_decr_of_lt hlt, exec_decr_of_lt (hlen ▸ hlt), rfl, rfl, rfl, rfl⟩
  · exact ⟨_, _, exec_decr_of_ge hge, exec_decr_of_ge (hlen ▸ hge),
      responsePayload_congr hbytes, rfl, rfl, rfl⟩

/-- Settles O53: each command by its own rule, with both buffers empty and CRC and STATUS at their reset
values. -/
theorem commandsAfterReset : Obligations.CommandsAfterReset := by
  refine ⟨fun b => ?_, ?_, fun n => ?_, ?_, ?_, ?_⟩
  · exact writeCrc_answers (crcStep 0xFFFF b) State.reset
  · exact writeCrc_answers 0xFFFF State.reset
  · have hshort : State.reset.ibuf.length < readResponseLength n := Nat.succ_pos _
    rw [exec_decr_of_lt hshort]
    exact raiseEmptyingObuf_answers .short State.reset
  · rw [exec_pop_of_empty reset_obuf]
    exact raise_answers .empty State.reset
  · exact emitFrame_answers_of_crc16 crc16_writeRequest_after_reset State.reset
  · exact emitFrame_answers_of_crc16 crc16_readRequest_after_reset State.reset

end Sys2Proof.Proofs
end

section
/-!
PROOF. The pseudo-instructions (spec/30_encoding.md R92): their expansions, and the runs of CHECKSUM and
CHECKSUMB from any state, one lemma per kind of command repeated (spec/40_crc.md R117, R118).
-/

namespace Sys2Proof.Machine

/-! ## Runs of presented commands -/

theorem hostProgram_cons (i : Instr) (program : List Instr) :
    hostProgram (i :: program) = .command (encode i) :: hostProgram program := rfl

theorem hostProgram_append (program program' : List Instr) :
    hostProgram (program ++ program') = hostProgram program ++ hostProgram program' :=
  List.map_append

/-- The command presented first is executed, and the run goes on with the others presented. -/
theorem run_of_presented {s u : State} {i : Instr} {rest : List HostInput}
    (hwf : WellFormed i = true) (hin : s.inputs = .command (encode i) :: rest)
    (hexec : exec i s = .next u) :
    (∀ k, Host.Core.run Sys2Proof.core (k + 1) s = Host.Core.run Sys2Proof.core k u) ∧
      u.inputs = rest := by
  obtain ⟨u', hexec', huIn⟩ := exec_uses_one_input i s
  cases hexec.symm.trans hexec'
  exact ⟨run_succ_of_step ((step_of_decode hin (decode_encode hwf)).trans hexec),
    by rw [huIn, hin, List.tail_cons]⟩

/-- CRCUs, one per byte: each folds its byte into CRC and answers the new value. -/
theorem run_crcus (bytes : List Byte) (s : State)
    (hin : s.inputs = hostProgram (bytes.map .crcu)) (hresp : s.response = some (resp s.crc 0)) :
    ∃ t, Host.Core.run Sys2Proof.core bytes.length s = .next t ∧ t.crc = crcFold s.crc bytes ∧
      t.status = s.status ∧ t.ibuf = s.ibuf ∧ t.obuf = s.obuf ∧
      t.response = some (resp (crcFold s.crc bytes) 0) ∧ t.inputs = [] := by
  induction bytes generalizing s with
  | nil => exact ⟨s, rfl, rfl, rfl, rfl, rfl, hresp, hin⟩
  | cons b bytes ih =>
    obtain ⟨hrun, huIn⟩ := run_of_presented (i := .crcu b) rfl hin (exec_crcu b s)
    obtain ⟨t, ht, hrest⟩ := ih (writeCrc (crcStep s.crc b) s) huIn rfl
    exact ⟨t, (hrun _).trans ht, hrest⟩

/-- PUSHes, one per byte, into an IBUF with room for them. -/
theorem run_pushes (bytes : List Byte) (s : State) (rest : List HostInput) (k : Nat)
    (hin : s.inputs = hostProgram (bytes.map .push) ++ rest)
    (hroom : s.ibuf.length + bytes.length ≤ Config.mfc.ibufCap) :
    ∃ t, Host.Core.run Sys2Proof.core (bytes.length + k) s = Host.Core.run Sys2Proof.core k t ∧
      t.status = s.status ∧ t.ibuf = s.ibuf ++ bytes ∧ t.obuf = s.obuf ∧ t.inputs = rest := by
  induction bytes generalizing s with
  | nil => exact ⟨s, by rw [List.length_nil, Nat.zero_add], rfl, by simp, rfl, hin⟩
  | cons b bytes ih =>
    rw [List.length_cons] at hroom
    have hpush : pushByte Config.mfc b s = _ := pushByte_of_room b (by omega)
    obtain ⟨hrun, huIn⟩ := run_of_presented (i := .push b) rfl hin
      ((exec_push b s).trans (congrArg _ hpush))
    have hroom' : (s.ibuf ++ [b]).length + bytes.length ≤ Config.mfc.ibufCap := by
      rw [List.length_append, List.length_singleton]
      omega
    obtain ⟨t, ht, hstatus, hibuf, hobuf, htIn⟩ := ih _ huIn hroom'
    refine ⟨t, ?_, hstatus, hibuf.trans (List.append_cons ..).symm, hobuf, htIn⟩
    rw [List.length_cons, Nat.add_right_comm, hrun, ht]

end Sys2Proof.Machine

namespace Sys2Proof.Proofs
open Sys2Proof.Machine

/-- Settles O54: the expansion column of R92; CHECKSUMB within the capacity of IBUF. -/
theorem pseudoExpansions : Obligations.PseudoExpansions :=
  fun _ _ _ _ => ⟨rfl, rfl, fun hlen => if_pos hlen, rfl, rfl, rfl⟩

/-- Settles O36: CRCI leaves the initial value and answers it, and the CRCUs fold the bytes into it. -/
theorem streamedChecksum : Obligations.StreamedChecksum := by
  refine ⟨crcuCommand, fun bytes s program hexpand hin => ?_⟩
  cases hexpand
  obtain ⟨hrun, huIn⟩ := run_of_presented (i := .crci) rfl hin (exec_crci s)
  obtain ⟨t, ht, hrest⟩ := run_crcus bytes (writeCrc 0xFFFF s) huIn rfl
  refine ⟨t, ?_, hrest⟩
  rw [List.length_cons, List.length_map, hrun, ht]

/-- Settles O37: CLRI makes room for the bytes, the PUSHes put them into IBUF, and CRCB sums IBUF. -/
theorem bufferedChecksum : Obligations.BufferedChecksum := by
  intro bytes hlen
  refine ⟨_, if_pos hlen, fun s hin => ?_⟩
  rw [List.cons_append, hostProgram_cons, hostProgram_append] at hin
  obtain ⟨hclri, huIn⟩ := run_of_presented (i := .clri) rfl hin (exec_clri s)
  obtain ⟨v, hpushes, hstatus, hibuf, hobuf, hvIn⟩ :=
    run_pushes bytes _ _ 1 huIn ((Nat.zero_add _).trans_le hlen)
  obtain ⟨hcrcb, htIn⟩ := run_of_presented (i := .crcb) rfl hvIn (exec_crcb v)
  have hv : v.ibuf = bytes := hibuf
  rw [hv] at hcrcb htIn
  refine ⟨writeCrc (crc16 bytes) v, ?_, rfl, hstatus, hv, hobuf, rfl, htIn⟩
  rw [List.length_append, List.length_cons, List.length_map, List.length_singleton,
    Nat.add_right_comm, hclri, hpushes, hcrcb]
  rfl

end Sys2Proof.Proofs
end
